-- ==== Sys2Proof/Word.lean ====
section
/-! DEFINITION. The word types of the block: the widths that `30_encoding.md` and `10_state.md` rule R21 fix. -/

namespace Sys2Proof

/-- The command word, the register-read data and the 32-bit registers and request fields (R21, R81, R87, R91). -/
abbrev Word32 := BitVec 32

/-- The operand and the 16-bit registers (R21, R82). -/
abbrev Half := BitVec 16

/-- A duty in percent, 0 to 100 (R21). -/
abbrev Duty := BitVec 7

/-- A driver's answer: 0 is success, 1 to 127 a resource error code (R91). -/
abbrev Answer := BitVec 7

/-- The status byte that ends every command (R90). -/
abbrev StatusByte := BitVec 8

/-- The event vector DONE, TICK, SYNC from bit 2 down to bit 0 (R84). -/
abbrev EventVector := BitVec 3

end Sys2Proof
end

