-- ==== Sys2Proof/Config.lean ====
section
/-! DEFINITION. The implementation parameters of `00_scope.md` rule R12, their constraints, and the values that
the spec leaves to the implementation and to the environment (opaque: nothing can be proved of them). -/

namespace Sys2Proof.Config

/-- `VARIANT` (R4, R12): dedicated speed channel with discrete banks, or a timer shared by speed and direction. -/
inductive Variant where
  | bank
  | shared
deriving DecidableEq, Repr, Inhabited

/-- `SYNC_EDGE_POL` (R12, R85): the edge of pin `sync_in` that raises a SYNC event. -/
inductive EdgePol where
  | rising
  | falling
deriving DecidableEq, Repr, Inhabited

/-- The parameters of R12, one field each, in the table's order. `N_DIR` is the length of `dirTable`
(`Params.nDir`). The spec gives a constraint for each and a value for none. -/
structure Params where
  /-- `VARIANT`. -/
  variant : Variant
  /-- `SPEED_CONV`. -/
  speedConv : Nat
  /-- `F_MIN`. -/
  fMin : Nat
  /-- `BANK_BEARING[0..7]`. -/
  bankBearing : Vector Nat 8
  /-- `DIR_TOL`. -/
  dirTol : Nat
  /-- `BANK_ACTIVE_LEVEL` (`true` is level 1). -/
  bankActiveLevel : Bool
  /-- `DIR_TABLE[0..N_DIR-1]`. -/
  dirTable : List Nat
  /-- `PEAK_SPEED_MAX`. -/
  peakSpeedMax : Nat
  /-- `PEAK_RAIN_MAX`. -/
  peakRainMax : Nat
  /-- `PERIOD_MS`. -/
  periodMs : Nat
  /-- `DEBOUNCE_MS`. -/
  debounceMs : Nat
  /-- `RAIN_DELAY_MS`. -/
  rainDelayMs : Nat
  /-- `EDGE_TO_UM`. -/
  edgeToUm : Nat
  /-- `RAIN_PULSE_HIGH`. -/
  rainPulseHigh : Nat
  /-- `RAIN_PULSE_LOW`. -/
  rainPulseLow : Nat
  /-- `SYNC_EDGE_POL`. -/
  syncEdgePol : EdgePol
deriving DecidableEq, Repr, Inhabited

/-- `N_DIR` (R12): how many entries `DIR_TABLE` has. -/
def Params.nDir (c : Params) : Nat := c.dirTable.length

/-- The constraints of R12 and R13, column "type and constraint", each under the parameter's name. -/
structure Params.Valid (c : Params) : Prop where
  speedConv : 1 ≤ c.speedConv ∧ c.speedConv < 2 ^ 16
  fMin : 1 ≤ c.fMin ∧ c.fMin < 2 ^ 32
  bankBearing : ∀ b ∈ c.bankBearing.toList, b < 360
  dirTol : 1 ≤ c.dirTol ∧ c.dirTol ≤ 179
  nDir : 1 ≤ c.nDir ∧ c.nDir < 2 ^ 16
  dirTable : ∀ d ∈ c.dirTable, d < 360
  peakSpeedMax : c.peakSpeedMax < 2 ^ 16 - 1
  peakRainMax : c.peakRainMax < 2 ^ 16 - 1
  periodMs : 1 ≤ c.periodMs ∧ c.periodMs < 2 ^ 32
  debounceMs : c.debounceMs < 2 ^ 32
  rainDelayMs : c.rainDelayMs < 2 ^ 32
  edgeToUm : 1 ≤ c.edgeToUm ∧ c.edgeToUm < 2 ^ 32
  rainPulseHigh : c.rainPulseHigh < 2 ^ 32
  rainPulseLow : c.rainPulseLow < 2 ^ 32

/-- `n` brought into `lo .. hi`; a value already there is left alone. -/
def clampTo (lo hi n : Nat) : Nat := max lo (min n hi)

/-- Any raw parameters brought into the constraints of R12; valid parameters are left alone
(`Params.clamp_eq_self`), so the clamped raw parameters range over exactly the valid ones. -/
def Params.clamp (c : Params) : Params :=
  { c with
    speedConv := clampTo 1 (2 ^ 16 - 1) c.speedConv
    fMin := clampTo 1 (2 ^ 32 - 1) c.fMin
    bankBearing := c.bankBearing.map (· % 360)
    dirTol := clampTo 1 179 c.dirTol
    dirTable := if 1 ≤ c.dirTable.length ∧ c.dirTable.length < 2 ^ 16 then c.dirTable.map (· % 360) else [0]
    peakSpeedMax := clampTo 0 (2 ^ 16 - 2) c.peakSpeedMax
    peakRainMax := clampTo 0 (2 ^ 16 - 2) c.peakRainMax
    periodMs := clampTo 1 (2 ^ 32 - 1) c.periodMs
    debounceMs := clampTo 0 (2 ^ 32 - 1) c.debounceMs
    rainDelayMs := clampTo 0 (2 ^ 32 - 1) c.rainDelayMs
    edgeToUm := clampTo 1 (2 ^ 32 - 1) c.edgeToUm
    rainPulseHigh := clampTo 0 (2 ^ 32 - 1) c.rainPulseHigh
    rainPulseLow := clampTo 0 (2 ^ 32 - 1) c.rainPulseLow }

/-- The implementation's parameters before their constraints are imposed: OPEN in the spec (R12, D34), so a constant
without a body (DESIGN CHOICE: assumption log 1). -/
opaque rawParams : Params

/-- The implementation's parameters: unknown, but within the constraints of R12 (assumption log 1). -/
def params : Params := rawParams.clamp

/-- The driver's answer to the `n`-th request of a run where the environment has committed to none: a draw under no
law (R10, R197; U9 in `93_implementation_defined.md`), so a constant without a body (DESIGN CHOICE: assumption
log 2). -/
opaque driverAnswer : Nat → Answer

end Sys2Proof.Config
end

