-- ==== Sys2Proof/Syntax.lean ====
section
/-! DEFINITION. The 13 operations of `30_encoding.md` rule R80, one constructor per row of `spec/opcode_table.json`. -/

namespace Sys2Proof

/-- An operation: one of ten host commands (R81) or one of three asynchronous events (R84). The operand of a command is
the natural that its `ARG` field spells (R82). -/
inductive Instr where
  /-- Acquire the resources, registers to their reset values (R181). -/
  | init
  /-- Disable both event sources, release the resources (R182). -/
  | deinit
  /-- Arm the sync edge source and start the period tick (R183). -/
  | start
  /-- Disarm the sync edge source and stop the period tick (R184). -/
  | stop
  /-- One pass of the scheduler (R155). -/
  | proc
  /-- Clear `new_scenario` (R185). -/
  | ack
  /-- Wind speed in km/h to frequency and duty (R111). -/
  | speed (kmh : Nat)
  /-- Wind direction in degrees to banks or to a duty (R114). -/
  | dir (deg : Nat)
  /-- Rainfall in millimetres to serialised pulses (R122). -/
  | rain (mm : Nat)
  /-- Zero both rainfall depths (R126). -/
  | rainrst
  /-- The synchronization edge (R140). -/
  | sync
  /-- The period signal (R143). -/
  | tick
  /-- Completion of a rainfall pulse (R146). -/
  | done
deriving DecidableEq, Repr

end Sys2Proof
end

