-- ==== Sys2Proof/Machine/State.lean ====
section
/-! DEFINITION. The state of the block (`10_state.md`), what the environment has laid out for it, and reset (R46). -/

namespace Sys2Proof.Machine

open Sys2Proof.Config

/-- Why the machine stops. -/
inductive Fault where
  /-- A result that does not fit its register: raised by TICK (`elapsed_ms`), RN1 (`rain_target_um`) and RN4
  (`rain_acc_um`), the one step to which the spec gives no meaning (R22, R200). Safe: the run ends there. -/
  | overflow
deriving DecidableEq, Repr

/-- Why an instruction has no meaning here. -/
inductive Refusal where
  /-- Raised by an arm of `exec` whose instruction has no meaning yet; no arm is left so. Safe: the run ends there. -/
  | notModelled (mnemonic : String)
deriving DecidableEq, Repr

/-- `ramp_direction_flag` (R28): `UP` is 0, `DOWN` is 1. -/
inductive RampDir where
  | up
  | down
deriving DecidableEq, Repr

/-- The values of `fg_pc` (R40): `IDLE` or the label of a micro-step. -/
inductive Label where
  | idle
  | ev1 | ev2 | ev3 | ev4 | ev5 | ev6 | ev7 | ev8 | ev9
  | sp1
  | dr0 | db | ds1
  | rn1 | rn2 | rn3 | rn4 | rn5
  | rr1 | in1 | de1 | st1 | st2 | so1 | so2 | ak1
deriving DecidableEq, Repr

/-- The values of `fg_ret` (R40): who called the running operation. -/
inductive Link where
  | host
  | proc
deriving DecidableEq, Repr

/-- The driver request kinds (R92). -/
inductive ReqKind where
  | acquire | release | irqArm | irqDisarm | tickStart | tickStop | waveform | pulse | bankWrite
deriving DecidableEq, Repr

/-- One driver request `(kind, chan, a, b)` (R91). -/
structure Request where
  kind : ReqKind
  chan : BitVec 4
  a : Word32
  b : Word32
deriving DecidableEq, Repr

/-- One entry of the output history `H` (R45). -/
inductive Entry where
  /-- FG issued `r` and the environment answered `answer`. -/
  | req (r : Request) (answer : Answer)
  /-- FG finished host command word `cmd` with `status`. -/
  | rsp (cmd : Word32) (status : StatusByte)
deriving DecidableEq, Repr

/-- The registers and flags of R23 to R39, R41 and R42, which reset and INIT put at their reset values (R46). -/
structure Regs where
  /-- `peak_speed` (R23). -/
  peakSpeed : Half
  /-- `peak_direction_index` (R24). -/
  peakDirectionIndex : Half
  /-- `peak_rainfall` (R25). -/
  peakRainfall : Half
  /-- `current_speed` (R26). -/
  currentSpeed : Half
  /-- `current_rainfall` (R27). -/
  currentRainfall : Half
  /-- `ramp_direction_flag` (R28). -/
  rampDirection : RampDir
  /-- `elapsed_ms` (R29). -/
  elapsedMs : Word32
  /-- `armed` (R30). -/
  armed : Bool
  /-- `pending` (R31). -/
  pending : Bool
  /-- `first_sync_seen` (R32). -/
  firstSyncSeen : Bool
  /-- `period_flag` (R33). -/
  periodFlag : Bool
  /-- `new_scenario` (R34). -/
  newScenario : Bool
  /-- `rain_acc_um` (R35). -/
  rainAccUm : Word32
  /-- `rain_target_um` (R36). -/
  rainTargetUm : Word32
  /-- `rain_inflight` (R37). -/
  rainInflight : Bool
  /-- `rain_pulse_total` (R42). -/
  rainPulseTotal : Word32
  /-- `speed_freq_r` (R38). -/
  speedFreq : Word32
  /-- `speed_duty_r` (R38). -/
  speedDuty : Duty
  /-- `out_bank_sel` (R39). -/
  outBankSel : BitVec 8
  /-- `out_dir_freq` (R39). -/
  outDirFreq : Word32
  /-- `out_dir_duty` (R39). -/
  outDirDuty : Duty
  /-- `inited` (R41). -/
  inited : Bool
  /-- `sync_en` (R41). -/
  syncEn : Bool
  /-- `tick_en` (R41). -/
  tickEn : Bool
deriving DecidableEq, Repr

/-- The reset value of every register (R46). -/
def Regs.reset (c : Params) : Regs where
  peakSpeed := 0
  peakDirectionIndex := 0
  peakRainfall := 0
  currentSpeed := 0
  currentRainfall := 0
  rampDirection := .up
  elapsedMs := 0
  armed := true
  pending := false
  firstSyncSeen := false
  periodFlag := false
  newScenario := false
  rainAccUm := 0
  rainTargetUm := 0
  rainInflight := false
  rainPulseTotal := 0
  speedFreq := BitVec.ofNat 32 c.fMin
  speedDuty := 0
  outBankSel := 0
  outDirFreq := 0
  outDirDuty := 0
  inited := false
  syncEn := false
  tickEn := false

/-- The foreground sequencer `(fg_pc, fg_ret, fg_arg, fg_i, fg_cmd)` (R40). -/
structure Foreground where
  pc : Label
  ret : Link
  arg : Half
  i : BitVec 4
  cmd : Word32
deriving DecidableEq, Repr

/-- At reset FG is at `IDLE`; the other four fields are never read there, and the spec leaves their value open
(R40, R46; U8): host, 0, 0, 0 here (DESIGN CHOICE: assumption log 3). -/
def Foreground.reset : Foreground := { pc := .idle, ret := .host, arg := 0, i := 0, cmd := 0 }

/-- The pin binding's synchroniser `sync_m`, `sync_s`, `sync_prev` (R43). -/
structure Synchroniser where
  m : Bool
  s : Bool
  prev : Bool
deriving DecidableEq, Repr

/-- All three at the inactive level of `SYNC_EDGE_POL` (R43, R46). -/
def Synchroniser.reset (c : Params) : Synchroniser :=
  let inactive := c.syncEdgePol = .falling
  { m := inactive, s := inactive, prev := inactive }

/-- What stands on the host's pins between two transitions: the response that the block drives, `rsp_valid` and
`rsp_status` (R86), and the address that the host drives, `reg_addr` (R87). `reg_rdata` is a function of the state
(`State.regRdata`). -/
structure HostPort where
  rspValid : Bool
  rspStatus : StatusByte
  regAddr : BitVec 4
deriving DecidableEq, Repr

/-- Before the first response and the first address: nothing valid, and 0; the spec gives these pins no reset value
(DESIGN CHOICE: assumption log 4). -/
def HostPort.reset : HostPort := { rspValid := false, rspStatus := 0, regAddr := 0 }

/-- The input pins in one cycle of `clk` (R98). -/
structure Pins where
  rstN : Bool
  syncIn : Bool
  tickIn : Bool
  pulseDoneIn : Bool
  cmdValid : Bool
  cmdWord : Word32
  regAddr : BitVec 4
  drvRspValid : Bool
  drvRspStatus : Answer
deriving DecidableEq, Repr

/-- What the environment lets happen next (R9, R66, R67: an execution is one sequence of atomic transitions). -/
inductive Move where
  /-- An event vector is raised; its events are taken one at a time (R70, R84). -/
  | events (v : EventVector)
  /-- The host offers a command word and waits until FG accepts it (R86). -/
  | offer (w : Word32)
  /-- FG takes its next atomic transition. -/
  | fg
  /-- The host reads a register (R87). -/
  | read (addr : BitVec 4)
  /-- One cycle of the pin binding (R70, R85, R86, R91, R97). -/
  | cycle (p : Pins)
deriving DecidableEq, Repr

/-- The machine. `regs`, `fg` and `sync` are the block's registers, `hist` its output history `H` (R45), `port` the
output pins. The rest is the model's own, so that one deterministic step stands for every execution: the parameters
of R12 (which no step writes, R11), the environment's coming moves, its committed answers to the coming driver
requests, and how many requests have been answered (DESIGN CHOICE: assumption log 1, 2 and 5). -/
structure State where
  cfg : Params
  regs : Regs
  fg : Foreground
  sync : Synchroniser
  port : HostPort
  hist : List Entry
  agenda : List Move
  answers : List Answer
  draws : Nat
deriving DecidableEq, Repr

/-- The state after reset under the parameters `c` (R46, R226), with an environment that has laid out nothing. -/
def State.resetWith (c : Params) : State where
  cfg := c
  regs := Regs.reset c
  fg := Foreground.reset
  sync := Synchroniser.reset c
  port := HostPort.reset
  hist := []
  agenda := []
  answers := []
  draws := 0

/-- The machine right after reset (R46), under the implementation's own parameters. -/
def State.reset : State := State.resetWith params

/-- The three outcomes of a transition. -/
abbrev Result := Host.Outcome State Fault Refusal

end Sys2Proof.Machine
end

