-- ==== Sys2Proof/Machine/Flags.lean ====
section
/-! DEFINITION. The flags as the rules set and clear them (R30 to R34, R41), and the register-read map that gathers
them (R87 to R89). -/

namespace Sys2Proof.Machine

open Sys2Proof.Config

/-- A SYNC event would be effective (R140). -/
def Regs.gateOpen (r : Regs) : Bool := r.syncEn && r.armed

/-- The writes of an effective SYNC event (R140). -/
def Regs.takeEdge (r : Regs) : Regs := { r with pending := true, armed := false, firstSyncSeen := true }

/-- The debounce guard has been exceeded, strictly (R158). -/
def Regs.guardPassed (r : Regs) (c : Params) : Bool := c.debounceMs < r.elapsedMs.toNat

/-- EV7's condition: the rainfall delay has passed, strictly, and the scenario's rain is not all emitted (R163). -/
def Regs.rainDue (r : Regs) (c : Params) : Bool :=
  decide (c.rainDelayMs < r.elapsedMs.toNat) && decide (r.currentRainfall.toNat < r.peakRainfall.toNat)

/-- `ramp_direction_flag` as a bit: `UP` is 0, `DOWN` is 1 (R28). -/
def RampDir.bit : RampDir → Bool
  | .up => false
  | .down => true

/-- Register 0, `STATUS` (R88): bit 10 first, bit 0 last. -/
def statusWord (r : Regs) (busy : Bool) : Word32 :=
  (0 : BitVec 21) ++ BitVec.ofBool busy ++ BitVec.ofBool r.rainInflight ++ BitVec.ofBool r.rampDirection.bit
    ++ BitVec.ofBool r.newScenario ++ BitVec.ofBool r.periodFlag ++ BitVec.ofBool r.firstSyncSeen
    ++ BitVec.ofBool r.pending ++ BitVec.ofBool r.armed ++ BitVec.ofBool r.tickEn ++ BitVec.ofBool r.syncEn
    ++ BitVec.ofBool r.inited

/-- Register 14, `CONFIG` (R89). -/
def configWord (c : Params) : Word32 :=
  (0 : BitVec 29) ++ BitVec.ofBool (c.syncEdgePol = .falling) ++ BitVec.ofBool c.bankActiveLevel
    ++ BitVec.ofBool (c.variant = .shared)

/-- FG is not at `IDLE` (R88); `cmd_ready` is its negation (R86). -/
def State.busy (s : State) : Bool := s.fg.pc ≠ .idle

/-- The register that `addr` selects, as the state stands (R64, R87). -/
def State.readRegister (s : State) (addr : BitVec 4) : Word32 :=
  match addr.toNat with
  | 0 => statusWord s.regs s.busy
  | 1 => s.regs.peakSpeed.setWidth 32
  | 2 => s.regs.peakDirectionIndex.setWidth 32
  | 3 => s.regs.peakRainfall.setWidth 32
  | 4 => s.regs.currentSpeed.setWidth 32
  | 5 => s.regs.currentRainfall.setWidth 32
  | 6 => s.regs.elapsedMs
  | 7 => s.regs.rainAccUm
  | 8 => s.regs.rainTargetUm
  | 9 => s.regs.rainPulseTotal
  | 10 => s.regs.speedFreq
  | 11 => s.regs.speedDuty.setWidth 32
  | 12 => (0 : BitVec 17) ++ s.regs.outDirDuty ++ s.regs.outBankSel
  | 13 => s.regs.outDirFreq
  | 14 => configWord s.cfg
  | _ => 0

/-- `reg_rdata`: the register that `reg_addr` selects, combinationally (R87). -/
def State.regRdata (s : State) : Word32 := s.readRegister s.port.regAddr

end Sys2Proof.Machine
end

