-- ==== Sys2Proof/WellFormed.lean ====
section
/-! DEFINITION. Which operations the encoding of `30_encoding.md` can spell. -/

namespace Sys2Proof

/-- The operand fits the 16-bit `ARG` field (R82). -/
def operandFits (n : Nat) : Bool := n < 2 ^ 16

/-- An operation is well formed when its operand, if it has one, fits its field. A direction of 360 or more is well
formed: DIR refuses it when it runs (R82, R114). -/
def Instr.wellFormed : Instr → Bool
  | .speed kmh => operandFits kmh
  | .dir deg => operandFits deg
  | .rain mm => operandFits mm
  | .init => true
  | .deinit => true
  | .start => true
  | .stop => true
  | .proc => true
  | .ack => true
  | .rainrst => true
  | .sync => true
  | .tick => true
  | .done => true

/-- The operation is a host command, carried by the command word, and not an event (R80). -/
def Instr.isCommand : Instr → Bool
  | .sync => false
  | .tick => false
  | .done => false
  | .init => true
  | .deinit => true
  | .start => true
  | .stop => true
  | .proc => true
  | .ack => true
  | .speed _ => true
  | .dir _ => true
  | .rain _ => true
  | .rainrst => true

end Sys2Proof
end

