-- ==== Sys2Proof/Decode.lean ====
section
/-! DEFINITION. The command word and the event vector of `30_encoding.md` rules R81 to R84: decoder and encoder. -/

namespace Sys2Proof

/-- Why a word spells no operation; every reason about a command word is answered `ERR_ILLEGAL` (R83). -/
inductive DecodeError where
  /-- `OPC` is 0x0, 0x7 or 0xC to 0xF. -/
  | reservedOpcode
  /-- `ZERO` is not 0. -/
  | zeroField
  /-- `ARG` is not 0 for an operation without an operand. -/
  | argOfOperandless
  /-- No bit of the event vector is 1: no event in this cycle (R84). -/
  | noEvent
deriving DecidableEq, Repr

/-- What carries an operation to the block: a command word or an event vector (R80). -/
inductive Encoded where
  | command (w : Word32)
  | event (v : EventVector)
deriving DecidableEq, Repr

/-- `OPC = cmd[31:28]` (R81). -/
def opcField (w : Word32) : BitVec 4 := w.extractLsb' 28 4

/-- `ZERO = cmd[27:16]` (R81). -/
def zeroBits (w : Word32) : BitVec 12 := w.extractLsb' 16 12

/-- `ARG = cmd[15:0]` (R81, R82). -/
def argField (w : Word32) : Half := w.extractLsb' 0 16

/-- An operation without an operand: legal only when `ARG` is 0 (R83). -/
def operandless (arg : Half) (i : Instr) : Except DecodeError Instr :=
  if arg = 0 then .ok i else .error .argOfOperandless

/-- The operation a command word spells, or why it is illegal (R81, R83). -/
def decodeCommand (w : Word32) : Except DecodeError Instr :=
  if zeroBits w ≠ 0 then .error .zeroField
  else match (opcField w).toNat with
    | 0x1 => operandless (argField w) .init
    | 0x2 => operandless (argField w) .deinit
    | 0x3 => operandless (argField w) .start
    | 0x4 => operandless (argField w) .stop
    | 0x5 => operandless (argField w) .proc
    | 0x6 => operandless (argField w) .ack
    | 0x8 => .ok (.speed (argField w).toNat)
    | 0x9 => .ok (.dir (argField w).toNat)
    | 0xA => .ok (.rain (argField w).toNat)
    | 0xB => operandless (argField w) .rainrst
    | _ => .error .reservedOpcode

/-- The first event of a vector in the order SYNC, TICK, DONE (R70, R84; DEDUCED: assumption log 11). -/
def decodeEvent (v : EventVector) : Except DecodeError Instr :=
  if v.getLsbD 0 then .ok .sync
  else if v.getLsbD 1 then .ok .tick
  else if v.getLsbD 2 then .ok .done
  else .error .noEvent

/-- The events of a vector that remain after `decodeEvent`'s: the lowest bit that is 1 becomes 0 (R70, R84). -/
def eventsLeft (v : EventVector) : EventVector := v &&& (v - 1)

/-- The operation that a word or a vector carries; total, every rejection has a name. -/
def decode : Encoded → Except DecodeError Instr
  | .command w => decodeCommand w
  | .event v => decodeEvent v

/-- The fields of a command word put together (R81). -/
def commandFields (opc : BitVec 4) (arg : Half) : Word32 := opc ++ (0 : BitVec 12) ++ arg

/-- The command word of a command (R81); an event has none, and 0 stands for it (an illegal word, R83). -/
def commandWord : Instr → Word32
  | .init => commandFields 0x1 0
  | .deinit => commandFields 0x2 0
  | .start => commandFields 0x3 0
  | .stop => commandFields 0x4 0
  | .proc => commandFields 0x5 0
  | .ack => commandFields 0x6 0
  | .speed kmh => commandFields 0x8 (BitVec.ofNat 16 kmh)
  | .dir deg => commandFields 0x9 (BitVec.ofNat 16 deg)
  | .rain mm => commandFields 0xA (BitVec.ofNat 16 mm)
  | .rainrst => commandFields 0xB 0
  | .sync => 0
  | .tick => 0
  | .done => 0

/-- How an operation is carried: its command word (R81), or the event vector that holds it alone (R84). -/
def encode : Instr → Encoded
  | .sync => .event 0b001
  | .tick => .event 0b010
  | .done => .event 0b100
  | .init => .command (commandWord .init)
  | .deinit => .command (commandWord .deinit)
  | .start => .command (commandWord .start)
  | .stop => .command (commandWord .stop)
  | .proc => .command (commandWord .proc)
  | .ack => .command (commandWord .ack)
  | .speed kmh => .command (commandWord (.speed kmh))
  | .dir deg => .command (commandWord (.dir deg))
  | .rain mm => .command (commandWord (.rain mm))
  | .rainrst => .command (commandWord .rainrst)

/-- A row of the opcode table as it is carried: the table gives an event row the 3 bits of the event vector (one byte),
a command row 32 bits; nothing is byte-addressed, each word is transferred whole (R62; DEDUCED: assumption log 11). -/
def encodedOfTable (nbits w : Nat) : Encoded :=
  if nbits ≤ 8 then .event (BitVec.ofNat 3 w) else .command (BitVec.ofNat 32 w)

/-- The instruction the decoder reads from a row of the opcode table whose bits are `w`. -/
def decodeTableWord (nbits w : Nat) : Option Instr :=
  match decode (encodedOfTable nbits w) with
  | .ok i => some i
  | .error _ => none

end Sys2Proof
end

