-- ==== Sys2Proof/Machine/Conversions.lean ====
section
/-! DEFINITION. The arithmetic of the waveform engine and of the ramp, over the naturals (R15, R127). -/

namespace Sys2Proof.Machine

open Sys2Proof.Config

/-- `RomRead(T, i)` (R61); an index outside the table cannot arise, and reads as 0 (DESIGN CHOICE:
assumption log 12). -/
def romRead (table : List Nat) (i : Nat) : Nat := table.getD i 0

/-- Frequency and duty of a wind speed: the product, or `F_MIN` with duty 0 when the product is 0 (R111). -/
def speedWave (c : Params) (kmh : Nat) : Nat × Nat :=
  let f := c.speedConv * kmh
  if f = 0 then (c.fMin, 0) else (f, 50)

/-- A bearing outside `[0, 360)`, which DIR refuses (R114). -/
def outOfRange (deg : Nat) : Bool := 360 ≤ deg

/-- The window test, over the integers: some `k` in `-1, 0, 1` puts `deg + 360 k` strictly within `tol` of `bearing`
(R116). -/
def inWindow (bearing tol deg : Nat) : Bool :=
  [(-1 : Int), 0, 1].any fun k =>
    decide ((bearing : Int) - tol < deg + 360 * k) && decide ((deg : Int) + 360 * k < bearing + tol)

/-- Bank `i` is selected by `deg` (R115, R116). -/
def bankSelected (c : Params) (i deg : Nat) : Bool :=
  inWindow (romRead c.bankBearing.toList i) c.dirTol deg

/-- The level written to a bank: the active level when it is selected, the other level when not (R115, R118). -/
def bankLevel (c : Params) (selected : Bool) : Bool :=
  if selected then c.bankActiveLevel else !c.bankActiveLevel

/-- Degrees as a percentage of the full circle, floor (R120). -/
def directionPercent (deg : Nat) : Nat := deg * 100 / 360

/-- The shared-duty formula, with 1 in place of 0 (R120). -/
def directionDuty (speedDuty deg : Nat) : Nat :=
  let d := (speedDuty + 100 - directionPercent deg) % 100
  if d = 0 then 1 else d

/-- Micrometres in `mm` millimetres (R122). -/
def micrometres (mm : Nat) : Nat := mm * 1000

/-- A sum that is too wide for a 32-bit register (R22). -/
def overflows (n : Nat) : Bool := 2 ^ 32 ≤ n

/-- One more pulse, saturating at `2^32 - 1` (R42, R122). -/
def pulseSucc (n : Nat) : Nat := min (n + 1) (2 ^ 32 - 1)

/-- A peak advanced by one, modulo one more than its maximum (R23 to R25, R157). -/
def wrapSucc (n max : Nat) : Nat := (n + 1) % (max + 1)

/-- The ramp update, four arms, the first that applies (R160). -/
def rampNext (peak current : Nat) (dir : RampDir) : Nat × RampDir :=
  if peak = 0 then (current, dir)
  else if peak ≤ current then (peak - 1, .down)
  else if current = 0 then (1, .up)
  else match dir with
    | .up => (current + 1, .up)
    | .down => (current - 1, .down)

/-- `v` with bit `i` set to `b` (R39, R115). -/
def setBit (v : BitVec 8) (i : Nat) (b : Bool) : BitVec 8 :=
  let m := (1 : BitVec 8) <<< i
  if b then v ||| m else v &&& ~~~m

end Sys2Proof.Machine
end

