-- ==== Sys2Proof/Machine/Ops.lean ====
section
/-! DEFINITION. The shared operations: statuses (R90), driver requests (R10, R91), `return s` (R40, R205) and the
acceptance of a command (R86, R180). -/

namespace Sys2Proof.Machine

open Sys2Proof.Config

/-- The statuses that end a command (R90, R195). -/
inductive Status where
  | ok
  | errRange
  | errIllegal
  | errState
  /-- `ERR_DRV(c)`, raised only with `c` in 1 to 127. -/
  | errDrv (c : Answer)
deriving DecidableEq, Repr

/-- The status byte (R90). -/
def Status.byte : Status → StatusByte
  | .ok => 0x00
  | .errRange => 0x01
  | .errIllegal => 0x02
  | .errState => 0x03
  | .errDrv c => (1 : BitVec 1) ++ c

/-- The number of a request kind (R92). -/
def ReqKind.code : ReqKind → BitVec 4
  | .acquire => 0
  | .release => 1
  | .irqArm => 2
  | .irqDisarm => 3
  | .tickStart => 4
  | .tickStop => 5
  | .waveform => 6
  | .pulse => 7
  | .bankWrite => 8

/-- The driver channels SPEED, DIRECTION, RAIN (R60, R92). -/
def chanSpeed : BitVec 4 := 0
@[inherit_doc chanSpeed] def chanDirection : BitVec 4 := 1
@[inherit_doc chanSpeed] def chanRain : BitVec 4 := 2

/-- The environment's answer to the next driver request (R10): what it has committed to, else a free draw (assumption
log 2). -/
def State.nextAnswer (s : State) : Answer :=
  match s.answers with
  | a :: _ => a
  | [] => driverAnswer s.draws

/-- `Drv(r)` (R16): the request and its answer go to `H`, and the answer is used up. -/
def State.request (s : State) (r : Request) : State :=
  { s with
    hist := s.hist ++ [.req r s.nextAnswer]
    answers := s.answers.tail
    draws := s.draws + 1 }

/-- The answer to command word `w`: on the response pins and in `H`, with FG at `IDLE` (R40, R86). -/
def State.answer (s : State) (w : Word32) (st : Status) : State :=
  { s with
    hist := s.hist ++ [.rsp w st.byte]
    port := { s.port with rspValid := true, rspStatus := st.byte }
    fg := { s.fg with pc := .idle } }

/-- `return st` of the command that FG runs, to the host (R40, R205): the running operation ends, the status goes to
the caller, nothing is undone. -/
def State.respond (s : State) (st : Status) : State := s.answer s.fg.cmd st

/-- `fg_pc <- l` (R16). -/
def State.goto (s : State) (l : Label) : State := { s with fg := { s.fg with pc := l } }

/-- A call from PROC of the operation whose first micro-step is `l`, with operand `arg` (R40, R161). -/
def State.call (s : State) (l : Label) (arg : Half) : State :=
  { s with fg := { s.fg with pc := l, ret := .proc, arg := arg } }

/-- `return st` of a waveform operation (R40, R110): to the host when the host issued it; else to PROC, which goes on
at `cont` after `OK` and otherwise returns `st` itself (R161, R162, R164, R166). PROC's own link is
the host (DEDUCED: assumption log 9). -/
def State.returnTo (s : State) (cont : Label) (st : Status) : State :=
  match s.fg.ret with
  | .host => s.respond st
  | .proc =>
    let t := { s with fg := { s.fg with ret := .host } }
    if st = .ok then t.goto cont else t.respond st

/-- Whether the operation may run (R180): INIT needs `inited = 0`, every other command `inited = 1`. -/
def lifecycleAllows (i : Instr) (inited : Bool) : Bool :=
  if i = .init then !inited else inited

/-- FG, at `IDLE`, takes the offered command `i`, whose first micro-step is `first` (R86): `ERR_STATE` when the
lifecycle precondition does not hold, else FG is set to run it. -/
def State.accept (s : State) (i : Instr) (first : Label) : State :=
  if lifecycleAllows i s.regs.inited then
    { s with fg := { s.fg with pc := first, ret := .host, arg := argField (commandWord i), cmd := commandWord i } }
  else s.answer (commandWord i) .errState

/-- The shape of every command (R40, R86): at `IDLE` it is accepted; while FG runs it, its next micro-step is taken;
while FG runs another command the port is not ready and nothing happens (R239, U14; DESIGN CHOICE: assumption log 7). -/
def foreground (i : Instr) (first : Label) (micro : Result) (s : State) : Result :=
  if s.fg.pc = .idle then .next (s.accept i first)
  else if s.fg.cmd = commandWord i then micro
  else .next s

/-- A label that is not one of the running operation's micro-steps, which cannot arise (R40): nothing happens
(DESIGN CHOICE: assumption log 12). -/
def noSuchStep (s : State) : Result := .next s

/-- An offered word that is illegal: answered `ERR_ILLEGAL`, nothing else happens (R83, R86). -/
def State.answerIllegal (s : State) (w : Word32) : State := s.answer w .errIllegal

end Sys2Proof.Machine
end

