-- ==== Sys2Proof/Machine/Events.lean ====
section
/-! DEFINITION. The asynchronous events SYNC, TICK and DONE (`41_async_events.md`): each one atomic transition, at any
time, whatever FG does. -/

namespace Sys2Proof.Machine

open Sys2Proof.Config

/-- SYNC (R140): effective only when `sync_en` and `armed` are 1, else nothing. -/
def execSync (s : State) : Result :=
  if s.regs.gateOpen then .next { s with regs := s.regs.takeEdge } else .next s

/-- TICK (R143): when `tick_en` is 1 the period flag is set and the clock advances by one period, with `fault Overflow`
when it does not fit; else nothing. -/
def execTick (s : State) : Result :=
  if s.regs.tickEn then
    let n := s.regs.elapsedMs.toNat + s.cfg.periodMs
    if overflows n then .fault .overflow
    else .next { s with regs := { s.regs with periodFlag := true, elapsedMs := BitVec.ofNat 32 n } }
  else .next s

/-- DONE (R146): the pulse in flight has completed; with none in flight, nothing. -/
def execDone (s : State) : Result :=
  if s.regs.rainInflight then .next { s with regs := { s.regs with rainInflight := false } } else .next s

end Sys2Proof.Machine
end

