-- ==== Sys2Proof/Machine/Operands.lean ====
section
/-! DEFINITION. Where each operation's operand comes from (R82, R161, R162, R164), and the driver requests that the
operations build from them (R92). -/

namespace Sys2Proof.Machine

open Sys2Proof.Config

/-- The operand of the running operation, as a natural (R40, R82). -/
def State.operand (s : State) : Nat := s.fg.arg.toNat

/-- The operand EV6 hands to DIR: `RomRead(DIR_TABLE, peak_direction_index)` (R162). -/
def State.tableBearing (s : State) : Half :=
  BitVec.ofNat 16 (romRead s.cfg.dirTable s.regs.peakDirectionIndex.toNat)

/-- A request whose channel and fields are all 0 (R92). -/
def Request.plain (k : ReqKind) : Request := { kind := k, chan := 0, a := 0, b := 0 }

/-- START's second request carries the period (R92, R183). -/
def tickStartRequest (c : Params) : Request :=
  { kind := .tickStart, chan := 0, a := BitVec.ofNat 32 c.periodMs, b := 0 }

/-- A continuous waveform on a channel (R92). -/
def waveformRequest (chan : BitVec 4) (freq duty : Nat) : Request :=
  { kind := .waveform, chan := chan, a := BitVec.ofNat 32 freq, b := BitVec.ofNat 32 duty }

/-- SPEED's request (R111). -/
def State.speedRequest (s : State) : Request :=
  let w := speedWave s.cfg s.operand
  waveformRequest chanSpeed w.1 w.2

/-- DIR's request for the bank that `fg_i` counts (R115). -/
def State.bankRequest (s : State) : Request :=
  { kind := .bankWrite
    chan := s.fg.i
    a := if bankLevel s.cfg (bankSelected s.cfg s.fg.i.toNat s.operand) then 1 else 0
    b := 0 }

/-- The duty DIR computes from the speed shadow (R120). -/
def State.sharedDuty (s : State) : Nat := directionDuty s.regs.speedDuty.toNat s.operand

/-- DIR's request on the shared timer (R120). -/
def State.directionRequest (s : State) : Request :=
  waveformRequest chanDirection s.regs.speedFreq.toNat s.sharedDuty

/-- RAIN's request for one pulse (R122). -/
def pulseRequest (c : Params) : Request :=
  { kind := .pulse
    chan := chanRain
    a := BitVec.ofNat 32 c.rainPulseHigh
    b := BitVec.ofNat 32 c.rainPulseLow }

/-- The request FG holds at the driver port at its present label, if that label issues one (R91, R169). -/
def State.heldRequest (s : State) : Option Request :=
  match s.fg.pc with
  | .in1 => some (.plain .acquire)
  | .de1 => some (.plain .release)
  | .st1 => some (.plain .irqArm)
  | .st2 => some (tickStartRequest s.cfg)
  | .so1 => some (.plain .irqDisarm)
  | .so2 => some (.plain .tickStop)
  | .sp1 => some s.speedRequest
  | .db => some s.bankRequest
  | .ds1 => some s.directionRequest
  | .rn3 => some (pulseRequest s.cfg)
  | .idle | .ev1 | .ev2 | .ev3 | .ev4 | .ev5 | .ev6 | .ev7 | .ev8 | .ev9
  | .dr0 | .rn1 | .rn2 | .rn4 | .rn5 | .rr1 | .ak1 => none

end Sys2Proof.Machine
end

