-- ==== Sys2Proof/Machine/Lifecycle.lean ====
section
/-! DEFINITION. The host's operations INIT, DEINIT, START, STOP and ACK (`43_host_operations.md`). -/

namespace Sys2Proof.Machine

open Sys2Proof.Config

/-- IN1 (R181): on success every register takes its reset value and `inited` becomes 1; on failure nothing is
written. -/
def microIN1 (s : State) : Result :=
  let t := s.request (.plain .acquire)
  if s.nextAnswer ≠ 0 then .next (t.respond (.errDrv s.nextAnswer))
  else .next ({ t with regs := { Regs.reset t.cfg with inited := true } }.respond .ok)

/-- DE1 (R182): the three lifecycle flags are cleared whether or not the driver reports an error. -/
def microDE1 (s : State) : Result :=
  let t := { s with regs := { s.regs with syncEn := false, tickEn := false, inited := false } }
  let u := t.request (.plain .release)
  if s.nextAnswer ≠ 0 then .next (u.respond (.errDrv s.nextAnswer)) else .next (u.respond .ok)

/-- ST1 (R183): the synchronization interrupt is armed. -/
def microST1 (s : State) : Result :=
  let t := s.request (.plain .irqArm)
  if s.nextAnswer ≠ 0 then .next (t.respond (.errDrv s.nextAnswer))
  else .next ({ t with regs := { t.regs with syncEn := true } }.goto .st2)

/-- ST2 (R183): the periodic tick is started. -/
def microST2 (s : State) : Result :=
  let t := s.request (tickStartRequest s.cfg)
  if s.nextAnswer ≠ 0 then .next (t.respond (.errDrv s.nextAnswer))
  else .next ({ t with regs := { t.regs with tickEn := true } }.respond .ok)

/-- SO1 (R184): the synchronization interrupt is disarmed. -/
def microSO1 (s : State) : Result :=
  let t := s.request (.plain .irqDisarm)
  if s.nextAnswer ≠ 0 then .next (t.respond (.errDrv s.nextAnswer))
  else .next ({ t with regs := { t.regs with syncEn := false } }.goto .so2)

/-- SO2 (R184): the periodic tick is stopped. -/
def microSO2 (s : State) : Result :=
  let t := s.request (.plain .tickStop)
  if s.nextAnswer ≠ 0 then .next (t.respond (.errDrv s.nextAnswer))
  else .next ({ t with regs := { t.regs with tickEn := false } }.respond .ok)

/-- AK1 (R185): the new-scenario mark is taken down. -/
def microAK1 (s : State) : Result :=
  .next ({ s with regs := { s.regs with newScenario := false } }.respond .ok)

/-- INIT (R181). -/
def execInit (s : State) : Result :=
  foreground .init .in1
    (match s.fg.pc with
      | .in1 => microIN1 s
      | _ => noSuchStep s) s

/-- DEINIT (R182). -/
def execDeinit (s : State) : Result :=
  foreground .deinit .de1
    (match s.fg.pc with
      | .de1 => microDE1 s
      | _ => noSuchStep s) s

/-- START (R183). -/
def execStart (s : State) : Result :=
  foreground .start .st1
    (match s.fg.pc with
      | .st1 => microST1 s
      | .st2 => microST2 s
      | _ => noSuchStep s) s

/-- STOP (R184). -/
def execStop (s : State) : Result :=
  foreground .stop .so1
    (match s.fg.pc with
      | .so1 => microSO1 s
      | .so2 => microSO2 s
      | _ => noSuchStep s) s

/-- ACK (R185). -/
def execAck (s : State) : Result :=
  foreground .ack .ak1
    (match s.fg.pc with
      | .ak1 => microAK1 s
      | _ => noSuchStep s) s

end Sys2Proof.Machine
end

