-- ==== Sys2Proof/Machine/Waveform.lean ====
section
/-! DEFINITION. The waveform engine: SPEED, DIR, RAIN and RAINRST (`40_waveform_engine.md`), each micro-step as it runs
under the host and under PROC (R110). -/

namespace Sys2Proof.Machine

open Sys2Proof.Config

/-- SP1 (R111): one WAVEFORM request; the shadow is written when the driver has accepted it. -/
def microSP1 (s : State) : Result :=
  let w := speedWave s.cfg s.operand
  let t := s.request s.speedRequest
  if s.nextAnswer ≠ 0 then .next (t.returnTo .ev6 (.errDrv s.nextAnswer))
  else
    let u := { t with regs :=
      { t.regs with speedFreq := BitVec.ofNat 32 w.1, speedDuty := BitVec.ofNat 7 w.2 } }
    .next (u.returnTo .ev6 .ok)

/-- DR0 (R114): the range check, before any request, and the choice of policy. -/
def microDR0 (s : State) : Result :=
  if outOfRange s.operand then .next (s.returnTo .ev7 .errRange)
  else match s.cfg.variant with
    | .bank => .next { s with fg := { s.fg with i := 0, pc := .db } }
    | .shared => .next (s.goto .ds1)

/-- DB (R115): one bank, selected or not; eight turns in ascending order. -/
def microDB (s : State) : Result :=
  let sel := bankSelected s.cfg s.fg.i.toNat s.operand
  let t := s.request s.bankRequest
  if s.nextAnswer ≠ 0 then .next (t.returnTo .ev7 (.errDrv s.nextAnswer))
  else
    let u := { t with
      regs := { t.regs with outBankSel := setBit t.regs.outBankSel s.fg.i.toNat sel }
      fg := { t.fg with i := t.fg.i + 1 } }
    if u.fg.i = 8 then .next (u.returnTo .ev7 .ok) else .next (u.goto .db)

/-- DS1 (R120): one WAVEFORM request on channel DIRECTION at the shadow's frequency; the outputs are written when the
driver has accepted it. -/
def microDS1 (s : State) : Result :=
  let t := s.request s.directionRequest
  if s.nextAnswer ≠ 0 then .next (t.returnTo .ev7 (.errDrv s.nextAnswer))
  else
    let u := { t with regs :=
      { t.regs with outDirFreq := t.regs.speedFreq, outDirDuty := BitVec.ofNat 7 s.sharedDuty } }
    .next (u.returnTo .ev7 .ok)

/-- RN1 (R122): the target is raised by the whole operand. -/
def microRN1 (s : State) : Result :=
  let n := s.regs.rainTargetUm.toNat + micrometres s.operand
  if overflows n then .fault .overflow
  else .next ({ s with regs := { s.regs with rainTargetUm := BitVec.ofNat 32 n } }.goto .rn2)

/-- RN2 (R122): another pulse while the accumulated depth is below the target. -/
def microRN2 (s : State) : Result :=
  if s.regs.rainAccUm.toNat < s.regs.rainTargetUm.toNat then .next (s.goto .rn3)
  else .next (s.returnTo .ev9 .ok)

/-- RN3 (R122, R125): one PULSE request; a refused pulse is neither in flight nor counted. -/
def microRN3 (s : State) : Result :=
  let t := s.request (pulseRequest s.cfg)
  if s.nextAnswer ≠ 0 then .next (t.returnTo .ev9 (.errDrv s.nextAnswer))
  else
    let u := { t with regs :=
      { t.regs with
        rainInflight := true
        rainPulseTotal := BitVec.ofNat 32 (pulseSucc t.regs.rainPulseTotal.toNat) } }
    .next (u.goto .rn4)

/-- RN4 (R122): the accumulated depth advances by one pulse. -/
def microRN4 (s : State) : Result :=
  let n := s.regs.rainAccUm.toNat + s.cfg.edgeToUm
  if overflows n then .fault .overflow
  else .next ({ s with regs := { s.regs with rainAccUm := BitVec.ofNat 32 n } }.goto .rn5)

/-- RN5 (R122, R123): the busy-poll; FG stays here, doing nothing, while the pulse is in flight. -/
def microRN5 (s : State) : Result :=
  if s.regs.rainInflight then .next s else .next (s.goto .rn2)

/-- The writes of RAINRST, which EV2 performs too (R126, R157). -/
def Regs.zeroRain (r : Regs) : Regs := { r with rainAccUm := 0, rainTargetUm := 0 }

/-- RR1 (R126): both depths become 0; no request, always `OK`. -/
def microRR1 (s : State) : Result := .next ({ s with regs := s.regs.zeroRain }.respond .ok)

/-- SPEED (R111). -/
def execSpeed (kmh : Nat) (s : State) : Result :=
  foreground (.speed kmh) .sp1
    (match s.fg.pc with
      | .sp1 => microSP1 s
      | _ => noSuchStep s) s

/-- DIR (R114, R115, R120). -/
def execDir (deg : Nat) (s : State) : Result :=
  foreground (.dir deg) .dr0
    (match s.fg.pc with
      | .dr0 => microDR0 s
      | .db => microDB s
      | .ds1 => microDS1 s
      | _ => noSuchStep s) s

/-- RAIN (R122). -/
def execRain (mm : Nat) (s : State) : Result :=
  foreground (.rain mm) .rn1
    (match s.fg.pc with
      | .rn1 => microRN1 s
      | .rn2 => microRN2 s
      | .rn3 => microRN3 s
      | .rn4 => microRN4 s
      | .rn5 => microRN5 s
      | _ => noSuchStep s) s

/-- RAINRST (R126). -/
def execRainrst (s : State) : Result :=
  foreground .rainrst .rr1
    (match s.fg.pc with
      | .rr1 => microRR1 s
      | _ => noSuchStep s) s

end Sys2Proof.Machine
end

