-- ==== Sys2Proof/Machine/Scheduler.lean ====
section
/-! DEFINITION. PROC, the scheduler's Evaluate step (`42_scheduler_evaluate.md`): micro-steps EV1 to EV9 and those of
the operations it calls. -/

namespace Sys2Proof.Machine

open Sys2Proof.Config

/-- EV1 (R156): before the first synchronization PROC does nothing. -/
def microEV1 (s : State) : Result :=
  if s.regs.firstSyncSeen then .next (s.goto .ev2) else .next (s.respond .ok)

/-- The writes of EV2 when an edge is pending (R157): a new scenario. -/
def Regs.acceptEdge (r : Regs) (c : Params) : Regs :=
  { r.zeroRain with
    pending := false
    elapsedMs := 0
    currentSpeed := 0
    rampDirection := .up
    currentRainfall := 0
    peakSpeed := BitVec.ofNat 16 (wrapSucc r.peakSpeed.toNat c.peakSpeedMax)
    peakDirectionIndex := BitVec.ofNat 16 ((r.peakDirectionIndex.toNat + 1) % c.nDir)
    peakRainfall := BitVec.ofNat 16 (wrapSucc r.peakRainfall.toNat c.peakRainMax)
    newScenario := true }

/-- EV2 (R157): a pending edge is consumed. -/
def microEV2 (s : State) : Result :=
  let r := if s.regs.pending then s.regs.acceptEdge s.cfg else s.regs
  .next ({ s with regs := r }.goto .ev3)

/-- EV3 (R158): the gate is armed again once the guard has been exceeded. -/
def microEV3 (s : State) : Result :=
  let r := if s.regs.guardPassed s.cfg then { s.regs with armed := true } else s.regs
  .next ({ s with regs := r }.goto .ev4)

/-- The registers after one ramp step (R160). -/
def Regs.rampStep (r : Regs) : Regs :=
  let n := rampNext r.peakSpeed.toNat r.currentSpeed.toNat r.rampDirection
  { r with currentSpeed := BitVec.ofNat 16 n.1, rampDirection := n.2 }

/-- EV4 (R159): a period is consumed, and the ramp takes one step. -/
def microEV4 (s : State) : Result :=
  if s.regs.periodFlag then
    .next ({ s with regs := { s.regs with periodFlag := false }.rampStep }.goto .ev5)
  else .next (s.respond .ok)

/-- EV5 (R161): SPEED is called with `current_speed`. -/
def microEV5 (s : State) : Result := .next (s.call .sp1 s.regs.currentSpeed)

/-- EV6 (R162): DIR is called with the table's bearing. -/
def microEV6 (s : State) : Result := .next (s.call .dr0 s.tableBearing)

/-- EV7 (R163): the rainfall condition. -/
def microEV7 (s : State) : Result :=
  if s.regs.rainDue s.cfg then .next (s.goto .ev8) else .next (s.respond .ok)

/-- EV8 (R164): RAIN is called with 1 millimetre. -/
def microEV8 (s : State) : Result := .next (s.call .rn1 1)

/-- EV9 (R165): the millimetre is counted. -/
def microEV9 (s : State) : Result :=
  .next ({ s with regs := { s.regs with currentRainfall := s.regs.currentRainfall + 1 } }.respond .ok)

/-- PROC (R155): its own micro-steps and those of SPEED, DIR and RAIN, which it calls. -/
def execProc (s : State) : Result :=
  foreground .proc .ev1
    (match s.fg.pc with
      | .ev1 => microEV1 s
      | .ev2 => microEV2 s
      | .ev3 => microEV3 s
      | .ev4 => microEV4 s
      | .ev5 => microEV5 s
      | .ev6 => microEV6 s
      | .ev7 => microEV7 s
      | .ev8 => microEV8 s
      | .ev9 => microEV9 s
      | .sp1 => microSP1 s
      | .dr0 => microDR0 s
      | .db => microDB s
      | .ds1 => microDS1 s
      | .rn1 => microRN1 s
      | .rn2 => microRN2 s
      | .rn3 => microRN3 s
      | .rn4 => microRN4 s
      | .rn5 => microRN5 s
      | .idle | .rr1 | .in1 | .de1 | .st1 | .st2 | .so1 | .so2 | .ak1 => noSuchStep s) s

end Sys2Proof.Machine
end

