-- ==== Sys2Proof/Machine/Dispatch.lean ====
section
/-! DEFINITION. One arm per operation of the opcode table. -/

namespace Sys2Proof.Machine

def exec (i : Instr) (s : State) : Host.Outcome State Fault Refusal :=
  match i with
  | .init => Sys2Proof.Machine.execInit s
  | .deinit => Sys2Proof.Machine.execDeinit s
  | .start => Sys2Proof.Machine.execStart s
  | .stop => Sys2Proof.Machine.execStop s
  | .proc => Sys2Proof.Machine.execProc s
  | .ack => Sys2Proof.Machine.execAck s
  | .speed kmh => Sys2Proof.Machine.execSpeed kmh s
  | .dir deg => Sys2Proof.Machine.execDir deg s
  | .rain mm => Sys2Proof.Machine.execRain mm s
  | .rainrst => Sys2Proof.Machine.execRainrst s
  | .sync => Sys2Proof.Machine.execSync s
  | .tick => Sys2Proof.Machine.execTick s
  | .done => Sys2Proof.Machine.execDone s

end Sys2Proof.Machine
end

