-- ==== Sys2Proof/Machine/PinBinding.lean ====
section
/-! DEFINITION. The pin-level binding (R70, R85, R86, R87, R91, R97): one cycle of `clk` is turned into the atomic
transitions it triggers, in the order R70 gives them. -/

namespace Sys2Proof.Machine

open Sys2Proof.Config

/-- `ev_sync` in this cycle: `sync_s` is at the active level and `sync_prev` is not (R43, R85). -/
def Synchroniser.edge (y : Synchroniser) (c : Params) : Bool :=
  match c.syncEdgePol with
  | .rising => y.s && !y.prev
  | .falling => !y.s && y.prev

/-- The three stages after the clock edge, all from the values before it (R85). -/
def Synchroniser.shift (y : Synchroniser) (syncIn : Bool) : Synchroniser := { m := syncIn, s := y.m, prev := y.s }

/-- The event vector of a cycle (R84). -/
def cycleEvents (c : Params) (y : Synchroniser) (p : Pins) : EventVector :=
  BitVec.ofBool p.pulseDoneIn ++ BitVec.ofBool p.tickIn ++ BitVec.ofBool (y.edge c)

/-- What FG does in a cycle, after the events: at `IDLE` it accepts an offered command (R86); at a label that issues a
request it waits for the driver's answer (R91); else it takes its micro-step. -/
def cycleForeground (s : State) (p : Pins) : List Move :=
  if s.fg.pc = .idle then (if p.cmdValid then [.offer p.cmdWord] else [])
  else if s.heldRequest.isSome && !p.drvRspValid then []
  else [.fg]

/-- The answers in a cycle: the driver's, when FG holds a request and the driver answers it now (R91). -/
def cycleAnswers (s : State) (p : Pins) : List Answer :=
  if s.heldRequest.isSome && p.drvRspValid then p.drvRspStatus :: s.answers else s.answers

/-- One clock cycle, with the cycle's address at the read port (R87): with `rst_n` at 0 everything is at its reset
value (R97); else the synchroniser shifts, the response port goes back to not valid, and the cycle's events and FG's
transition come next, in that order (R70; DESIGN CHOICE: assumption log 8 and 10). -/
def State.clockCycle (s : State) (p : Pins) : State :=
  if p.rstN then
    { s with
      sync := s.sync.shift p.syncIn
      port := { s.port with rspValid := false, regAddr := p.regAddr }
      answers := cycleAnswers s p
      agenda := .events (cycleEvents s.cfg s.sync p) :: (cycleForeground s p ++ s.agenda) }
  else
    { State.resetWith s.cfg with
      port := { HostPort.reset with regAddr := p.regAddr }
      agenda := s.agenda
      answers := s.answers
      draws := s.draws }

/-- A register read by the host: the address is put at the read port, where `State.regRdata` shows the register; nothing
else changes (R64, R87). -/
def State.hostRead (s : State) (addr : BitVec 4) : State :=
  { s with port := { s.port with regAddr := addr } }

/-- `cmd_ready` (R86). -/
def State.cmdReady (s : State) : Bool := !s.busy

end Sys2Proof.Machine
end

