-- ==== Sys2Proof/Machine/Schedule.lean ====
section
/-! DEFINITION. Which atomic transition comes next (R9, R66, R67, R70): the environment's next move is taken from the
agenda, and the instruction it calls for is decoded. -/

namespace Sys2Proof.Machine

/-- The next atomic transition: an instruction to run, or a transition that runs none. -/
inductive Task where
  | run (i : Instr) (s : State)
  | stay (s : State)
deriving DecidableEq, Repr

/-- FG's turn (R40): at `IDLE` with no command offered it does nothing; else it goes on with the command it runs. -/
def State.foregroundTurn (s : State) : Task :=
  if s.fg.pc = .idle then .stay s
  else match decodeCommand s.fg.cmd with
    | .ok i => .run i s
    | .error _ => .stay s

/-- The host offers a word to FG at `IDLE` (R86): a legal word is run, an illegal one answered (R83). -/
def State.offered (s : State) (w : Word32) : Task :=
  match decodeCommand w with
  | .ok i => .run i s
  | .error _ => .stay (s.answerIllegal w)

/-- The agenda after the first event of `v` has been taken (R70, R84). -/
def agendaAfter (v : EventVector) (rest : List Move) : List Move :=
  if eventsLeft v = 0 then rest else .events (eventsLeft v) :: rest

/-- The next atomic transition of the machine. With an empty agenda the environment does nothing and FG goes on. An
offer that meets a busy FG stays: the host waits, and FG goes on (R86; DESIGN CHOICE: assumption log 5). -/
def State.nextTask (s : State) : Task :=
  match s.agenda with
  | [] => s.foregroundTurn
  | .fg :: rest => { s with agenda := rest }.foregroundTurn
  | .offer w :: rest =>
    if s.fg.pc = .idle then { s with agenda := rest }.offered w else s.foregroundTurn
  | .events v :: rest =>
    match decodeEvent v with
    | .ok i => .run i { s with agenda := agendaAfter v rest }
    | .error _ => .stay { s with agenda := rest }
  | .read addr :: rest => .stay ({ s with agenda := rest }.hostRead addr)
  | .cycle p :: rest => .stay ({ s with agenda := rest }.clockCycle p)

/-- The state in which the next step takes what `e` carries: an event vector is raised next, or a command word is
offered next to an idle FG. -/
def State.place (s : State) (e : Encoded) : State :=
  match e with
  | .event v => { s with agenda := .events v :: s.agenda }
  | .command w => { s with agenda := .offer w :: s.agenda, fg := { s.fg with pc := .idle } }

end Sys2Proof.Machine
end

