-- ==== Sys2Proof/Machine/Step.lean ====
section
/-! DEFINITION. One step: one atomic transition of one agent (R66, R67). -/

namespace Sys2Proof.Machine

/-- The machine takes its next atomic transition. -/
def step (s : State) : Host.Outcome State Fault Refusal :=
  match s.nextTask with
  | .run i t => exec i t
  | .stay t => .next t

/-- `s` with the instruction of an opcode-table row placed where the next step takes it: on the event pins, or offered
at the command port to an idle FG (assumption log 6). -/
def State.withFetchWord (s : State) (nbits w : Nat) : State := s.place (encodedOfTable nbits w)

end Sys2Proof.Machine
end

