-- ==== Sys2Proof/Safety.lean ====
section
/-! DEFINITION. The terms claims are stated in: where FG stands, how a command ends, what a run of FG alone is, and the
invariants of `70_reset_and_hazards.md` rule R229 that make a state a safe one. -/

namespace Sys2Proof.Machine

open Sys2Proof.Config

/-- FG runs command `i` and stands at label `pc`, with return link `ret` (R40). -/
abbrev State.StandsAt (s : State) (i : Instr) (pc : Label) (ret : Link) : Prop :=
  s.fg.pc = pc ∧ s.fg.ret = ret ∧ s.fg.cmd = commandWord i

/-- `s` once FG's command has ended with status byte `st`, after the requests `es` (R40, R45, R86). -/
def State.ended (s : State) (es : List Entry) (st : StatusByte) : State :=
  { s with
    hist := s.hist ++ es ++ [.rsp s.fg.cmd st]
    port := { s.port with rspValid := true, rspStatus := st }
    fg := { s.fg with pc := .idle }
    answers := s.answers.drop es.length
    draws := s.draws + es.length }

/-- `s` once FG has moved to label `l`, after the requests `es` (R40, R45). -/
def State.advanced (s : State) (es : List Entry) (l : Label) : State :=
  { s with
    hist := s.hist ++ es
    fg := { s.fg with pc := l }
    answers := s.answers.drop es.length
    draws := s.draws + es.length }

/-- The status byte of a command whose driver request was answered `c`: `OK` or `ERR_DRV(c)` (R90). -/
def driverStatus (c : Answer) : StatusByte := BitVec.ofNat 8 (if c = 0 then 0x00 else 0x80 + c.toNat)

/-- `deg` is inside the window of a bank at `bearing`: some `k` in `-1, 0, 1` puts `deg + 360 k` strictly within `tol`
of it, over the integers (R116). -/
def InWindow (bearing tol deg : Nat) : Prop :=
  ∃ k ∈ [(-1 : Int), 0, 1], (bearing : Int) - tol < deg + 360 * k ∧ (deg : Int) + 360 * k < bearing + tol

/-- The level of a bank: the active level when it is selected, else the other one (R115, R118). -/
def levelOf (c : Params) (selected : Bool) : Word32 := if selected = c.bankActiveLevel then 1 else 0

/-- `s` with PROC's own return link, as it is when a called operation has returned (R40). -/
def State.backInProc (s : State) : State := { s with fg := { s.fg with ret := .host } }

/-- A command word that is illegal, by the bits of R83: `OPC` is 0x0, 0x7 or 0xC to 0xF, or `ZERO` is not 0, or `ARG` is
not 0 on INIT, DEINIT, START, STOP, PROC, ACK or RAINRST. -/
def IllegalWord (w : Word32) : Prop :=
  (w.toNat / 2 ^ 28 = 0x0 ∨ w.toNat / 2 ^ 28 = 0x7 ∨ 0xC ≤ w.toNat / 2 ^ 28) ∨
    w.toNat / 2 ^ 16 % 2 ^ 12 ≠ 0 ∨
    (w.toNat / 2 ^ 28 ∈ [0x1, 0x2, 0x3, 0x4, 0x5, 0x6, 0xB] ∧ w.toNat % 2 ^ 16 ≠ 0)

/-- The first micro-step of each command (R40); an event has none. -/
def firstLabel : Instr → Label
  | .init => .in1
  | .deinit => .de1
  | .start => .st1
  | .stop => .so1
  | .proc => .ev1
  | .ack => .ak1
  | .speed _ => .sp1
  | .dir _ => .dr0
  | .rain _ => .rn1
  | .rainrst => .rr1
  | .sync => .idle
  | .tick => .idle
  | .done => .idle

/-- The operand of a command, 0 when it has none (R81, R82). -/
def operandOf : Instr → Nat
  | .speed kmh => kmh
  | .dir deg => deg
  | .rain mm => mm
  | .init => 0
  | .deinit => 0
  | .start => 0
  | .stop => 0
  | .proc => 0
  | .ack => 0
  | .rainrst => 0
  | .sync => 0
  | .tick => 0
  | .done => 0

/-- The micro-steps of SPEED, DIR and RAIN, which PROC can call (R40, R169). -/
def Label.callable : Label → Bool
  | .sp1 | .dr0 | .db | .ds1 | .rn1 | .rn2 | .rn3 | .rn4 | .rn5 => true
  | .idle | .ev1 | .ev2 | .ev3 | .ev4 | .ev5 | .ev6 | .ev7 | .ev8 | .ev9
  | .rr1 | .in1 | .de1 | .st1 | .st2 | .so1 | .so2 | .ak1 => false

/-- The micro-steps of RAIN. -/
def Label.inRain : Label → Bool
  | .rn1 | .rn2 | .rn3 | .rn4 | .rn5 => true
  | .idle | .ev1 | .ev2 | .ev3 | .ev4 | .ev5 | .ev6 | .ev7 | .ev8 | .ev9
  | .sp1 | .dr0 | .db | .ds1 | .rr1 | .in1 | .de1 | .st1 | .st2 | .so1 | .so2 | .ak1 => false

/-- PROC's own micro-steps EV1 to EV9. -/
def Label.inEvaluate : Label → Bool
  | .ev1 | .ev2 | .ev3 | .ev4 | .ev5 | .ev6 | .ev7 | .ev8 | .ev9 => true
  | .idle | .sp1 | .dr0 | .db | .ds1 | .rn1 | .rn2 | .rn3 | .rn4 | .rn5
  | .rr1 | .in1 | .de1 | .st1 | .st2 | .so1 | .so2 | .ak1 => false

/-- Where FG can stand while it runs command `i`, and with which link (R40). -/
def runsAt (i : Instr) (pc : Label) (ret : Link) : Bool :=
  match i with
  | .init => pc = .in1 ∧ ret = .host
  | .deinit => pc = .de1 ∧ ret = .host
  | .start => (pc = .st1 ∨ pc = .st2) ∧ ret = .host
  | .stop => (pc = .so1 ∨ pc = .so2) ∧ ret = .host
  | .proc => (pc.inEvaluate ∧ ret = .host) ∨ (pc.callable ∧ ret = .proc)
  | .ack => pc = .ak1 ∧ ret = .host
  | .speed _ => pc = .sp1 ∧ ret = .host
  | .dir _ => (pc = .dr0 ∨ pc = .db ∨ pc = .ds1) ∧ ret = .host
  | .rain _ => pc.inRain ∧ ret = .host
  | .rainrst => pc = .rr1 ∧ ret = .host
  | .sync => false
  | .tick => false
  | .done => false

/-- FG stands where the command in `fg_cmd` can stand (R40). -/
def Foreground.coherent (f : Foreground) : Bool :=
  match decodeCommand f.cmd with
  | .ok i => runsAt i f.pc f.ret
  | .error _ => false

/-- FG is between EV7's test and EV9 of a pass that lets a millimetre of rain fall (R163 to R165). -/
def Foreground.raining (f : Foreground) : Bool :=
  f.pc = .ev8 ∨ f.pc = .ev9 ∨ (f.ret = .proc ∧ f.pc.inRain)

/-- What R229 says of the registers alone. -/
structure Regs.Ok (r : Regs) (c : Params) : Prop where
  peakSpeed : r.peakSpeed.toNat ≤ c.peakSpeedMax
  peakDirectionIndex : r.peakDirectionIndex.toNat < c.nDir
  peakRainfall : r.peakRainfall.toNat ≤ c.peakRainMax
  currentSpeed : r.currentSpeed.toNat ≤ r.peakSpeed.toNat
  currentRainfall : r.currentRainfall.toNat ≤ r.peakRainfall.toNat
  pendingSeen : r.pending = true → r.firstSyncSeen = true
  beforeFirstSync : r.firstSyncSeen = false →
    r.armed = true ∧ r.pending = false ∧ r.newScenario = false ∧
      r.peakSpeed = 0 ∧ r.peakDirectionIndex = 0 ∧ r.peakRainfall = 0
  enables : r.syncEn = true ∨ r.tickEn = true → r.inited = true
  elapsed : c.periodMs ∣ r.elapsedMs.toNat
  speedDuty : r.speedDuty = 0 ∨ r.speedDuty = 50
  outDirDuty : r.outDirDuty = 0 ∨ (1 ≤ r.outDirDuty.toNat ∧ r.outDirDuty.toNat ≤ 99)
  rainAcc : c.edgeToUm ∣ r.rainAccUm.toNat

/-- What R229 says of FG and of `rain_inflight`, with what R40 and R169 say of FG's position that it rests on. -/
structure Foreground.Ok (f : Foreground) (r : Regs) : Prop where
  raining : f.raining = true → r.currentRainfall.toNat < r.peakRainfall.toNat
  busyInited : f.pc ≠ .idle → (r.inited = true ↔ f.pc ≠ .in1)
  inflight : r.rainInflight = true → f.pc = .rn4 ∨ f.pc = .rn5
  coherent : f.pc ≠ .idle → f.coherent = true
  bankIndex : f.pc = .db → f.i.toNat < 8
  bearing : f.pc = .db ∨ f.pc = .ds1 → f.arg.toNat < 360
  tableBearing : f.pc = .dr0 ∧ f.ret = .proc → f.arg.toNat < 360

/-- The invariants of R229, with what they rest on. -/
structure Inv (s : State) : Prop where
  cfg : s.cfg.Valid
  regs : s.regs.Ok s.cfg
  fg : s.fg.Ok s.regs

/-- The entry is a `PULSE` request (R45, R92). -/
def Entry.isPulse : Entry → Bool
  | .req r _ => r.kind = .pulse
  | .rsp _ _ => false

/-- Where PROC goes on after the operation it called has returned `OK` (R40, R161, R162, R164); other operations are not
called. -/
def continuation : Instr → Label
  | .speed _ => .ev6
  | .dir _ => .ev7
  | .rain _ => .ev9
  | .init => .idle
  | .deinit => .idle
  | .start => .idle
  | .stop => .idle
  | .proc => .idle
  | .ack => .idle
  | .rainrst => .idle
  | .sync => .idle
  | .tick => .idle
  | .done => .idle

/-- `rst_n` is at 0 in the next move (R97). -/
def State.resetNext (s : State) : Bool :=
  match s.agenda with
  | .cycle p :: _ => !p.rstN
  | [] => false
  | .events _ :: _ => false
  | .offer _ :: _ => false
  | .fg :: _ => false
  | .read _ :: _ => false

/-- The registers that R45 calls functions of the history: the speed shadow, the direction outputs and the pulse total
(R38, R39, R42). -/
structure Outputs where
  speedFreq : Word32
  speedDuty : Duty
  outBankSel : BitVec 8
  outDirFreq : Word32
  outDirDuty : Duty
  rainPulseTotal : Word32
deriving DecidableEq, Repr

/-- The output registers of a state. -/
def Regs.outputs (r : Regs) : Outputs where
  speedFreq := r.speedFreq
  speedDuty := r.speedDuty
  outBankSel := r.outBankSel
  outDirFreq := r.outDirFreq
  outDirDuty := r.outDirDuty
  rainPulseTotal := r.rainPulseTotal

/-- Their reset values (R46). -/
def Outputs.reset (c : Params) : Outputs where
  speedFreq := BitVec.ofNat 32 c.fMin
  speedDuty := 0
  outBankSel := 0
  outDirFreq := 0
  outDirDuty := 0
  rainPulseTotal := 0

/-- What one entry of `H` says of the output registers (R38, R39, R42, R46): a request the driver accepted is recorded,
an accepted ACQUIRE puts them at their reset values, and no other entry says anything. -/
def Outputs.after (c : Params) (o : Outputs) (e : Entry) : Outputs :=
  match e with
  | .rsp _ _ => o
  | .req r answer =>
    if answer ≠ 0 then o
    else match r.kind with
      | .acquire => Outputs.reset c
      | .waveform =>
        if r.chan = 0 then { o with speedFreq := r.a, speedDuty := r.b.setWidth 7 }
        else { o with outDirFreq := r.a, outDirDuty := r.b.setWidth 7 }
      | .bankWrite =>
        { o with outBankSel := setBit o.outBankSel r.chan.toNat (decide (r.a = if c.bankActiveLevel then 1 else 0)) }
      | .pulse => { o with rainPulseTotal := BitVec.ofNat 32 (min (o.rainPulseTotal.toNat + 1) (2 ^ 32 - 1)) }
      | .release => o
      | .irqArm => o
      | .irqDisarm => o
      | .tickStart => o
      | .tickStop => o

/-- The output registers that a history stands for (R45). -/
def replay (c : Params) (h : List Entry) : Outputs := h.foldl (Outputs.after c) (Outputs.reset c)

/-- One turn of RAIN's loop in the prompt environment of R94: RN2, RN3, the pulse's DONE, RN4, RN5. -/
def pulseTurn : List Move := [.fg, .fg, .events 0b100, .fg, .fg]

/-- `n` turns of RAIN's loop in the prompt environment. -/
def pulseTurns : Nat → List Move
  | 0 => []
  | n + 1 => pulseTurn ++ pulseTurns n

/-- The least `n` with `a ≤ n * d` (R124's `ceil`), for `d` at least 1. -/
def ceilDiv (a d : Nat) : Nat := (a + d - 1) / d

/-- The pulses RAIN emits from accumulated depth `acc` up to `target` (R124). -/
def pulseCount (acc target edge : Nat) : Nat := ceilDiv (target - acc) edge

/-- A list of RAIN commands in the prompt environment (R94), from accumulated depth `acc` and target `target`: each is
offered, takes RN1, the turns of its pulses, and the RN2 that ends it. -/
def promptRains (edge : Nat) : Nat → Nat → List Nat → List Move
  | _, _, [] => []
  | acc, target, mm :: mms =>
    let n := pulseCount acc (target + mm * 1000) edge
    .offer (commandWord (.rain mm)) :: .fg ::
      (pulseTurns n ++ .fg :: promptRains edge (acc + n * edge) (target + mm * 1000) mms)

/-- The triangle of R167: `current_speed` after `k` consumed periods of a scenario whose peak is `p`. -/
def triangle (p k : Nat) : Nat := if k % (2 * p) ≤ p then k % (2 * p) else 2 * p - k % (2 * p)

/-- The ramp after `k` consumed periods, from speed 0 going up (R160, R167). -/
def rampAfter (p : Nat) : Nat → Nat × RampDir
  | 0 => (0, .up)
  | k + 1 => rampNext p (rampAfter p k).1 (rampAfter p k).2

/-- The registers after `j` accepted edges with nothing between them (R157, R168). -/
def edgesAccepted (c : Params) (r : Regs) : Nat → Regs
  | 0 => r
  | j + 1 => { edgesAccepted c r j with pending := true }.acceptEdge c

/-- The window test in naturals (R117). -/
def windowInNaturals (bearing tol deg : Nat) : Bool :=
  if tol ≤ bearing ∧ bearing + tol < 360 then decide (bearing - tol < deg) && decide (deg < bearing + tol)
  else decide ((bearing + 360 - tol) % 360 < deg) || decide (deg < (bearing + tol) % 360)

end Sys2Proof.Machine
end

