-- ==== Sys2Proof/Certificates/Slice0/Obligations.lean ====
section
/-! DEFINITION. The statements for the provers. -/

open Sys2Proof Sys2Proof.Machine Sys2Proof.Config

/-! ### Encoding -/

/-- R81, R84: decoding what a well-formed operation is encoded as gives the operation back. -/
def Obligations.DecodeInvertsEncode : Prop :=
  ∀ i : Instr, i.wellFormed = true → decode (encode i) = .ok i

/-- R81, R82: a legal command word is the encoding of the one operation it spells, and no bit of it is dropped. -/
def Obligations.LegalWordsAreEncodings : Prop :=
  ∀ (w : Word32) (i : Instr), decodeCommand w = .ok i → i.wellFormed = true ∧ encode i = .command w

/-- R83: the words the decoder rejects are the illegal ones. -/
def Obligations.IllegalWordsAreTheReserved : Prop :=
  ∀ w : Word32, (∃ e, decodeCommand w = .error e) ↔ IllegalWord w

/-- V-ENC of `95_test_vectors.md`, the ten opcodes of R81 and the three bits of R84: words and vectors written out from
the tables decode to what they stand for. -/
def Obligations.WrittenOutWordsDecode : Prop :=
  decodeCommand 0x10000000 = .ok .init ∧ decodeCommand 0x20000000 = .ok .deinit ∧
    decodeCommand 0x30000000 = .ok .start ∧ decodeCommand 0x40000000 = .ok .stop ∧
    decodeCommand 0x50000000 = .ok .proc ∧ decodeCommand 0x60000000 = .ok .ack ∧
    decodeCommand 0x8000000C = .ok (.speed 12) ∧ decodeCommand 0x9000010E = .ok (.dir 270) ∧
    decodeCommand 0xA0000001 = .ok (.rain 1) ∧ decodeCommand 0xB0000000 = .ok .rainrst ∧
    decodeEvent 0b001 = .ok .sync ∧ decodeEvent 0b010 = .ok .tick ∧ decodeEvent 0b100 = .ok .done

/-! ### One step -/

/-- R40, R86: a step in which the host offers a legal word to an idle FG is the meaning of the instruction the word
decodes to; while FG is busy a step of FG is the meaning of the instruction in `fg_cmd`, and an offer that meets a busy
FG waits. That FG goes on when the environment has laid out nothing is the model's choice (assumption log 5). -/
def Obligations.StepRunsTheDecodedInstruction : Prop :=
  ∀ (s : State) (w : Word32) (rest : List Move) (i : Instr),
    (s.fg.pc = .idle → s.agenda = .offer w :: rest → decodeCommand w = .ok i →
      step s = exec i { s with agenda := rest }) ∧
    (s.fg.pc ≠ .idle → decodeCommand s.fg.cmd = .ok i →
      (s.agenda = [] → step s = exec i s) ∧
      (s.agenda = .fg :: rest → step s = exec i { s with agenda := rest }) ∧
      (s.agenda = .offer w :: rest → step s = exec i s))

/-- R70, R84: the events of a vector are taken one at a time, SYNC, then TICK, then DONE. -/
def Obligations.StepTakesEventsInOrder : Prop :=
  ∀ (s : State) (v : EventVector) (rest : List Move), s.agenda = .events v :: rest →
    (v = 0 → step s = .next { s with agenda := rest }) ∧
      (v.getLsbD 0 = true → step s = exec .sync
        { s with agenda := if v &&& 0b110 = 0 then rest else .events (v &&& 0b110) :: rest }) ∧
      (v.getLsbD 0 = false → v.getLsbD 1 = true → step s = exec .tick
        { s with agenda := if v &&& 0b100 = 0 then rest else .events (v &&& 0b100) :: rest }) ∧
      (v.getLsbD 0 = false → v.getLsbD 1 = false → v.getLsbD 2 = true →
        step s = exec .done { s with agenda := rest })

/-- R83: a word with a reserved opcode, a `ZERO` field that is not 0, or an `ARG` that is not 0 on an operation without
an operand, offered to an idle FG, is answered `ERR_ILLEGAL`; no register changes, no request is issued, and FG stays at
`IDLE`. -/
def Obligations.IllegalWordIsOnlyAnswered : Prop :=
  ∀ (s : State) (w : Word32) (rest : List Move), s.agenda = .offer w :: rest → s.fg.pc = .idle → IllegalWord w →
    step s = .next { s with
      agenda := rest
      hist := s.hist ++ [.rsp w 0x02]
      port := { s.port with rspValid := true, rspStatus := 0x02 } }

/-! ### Acceptance -/

/-- R86: a command whose lifecycle precondition (R180) holds sets FG to its first micro-step. -/
def Obligations.AcceptanceStartsTheOperation : Prop :=
  ∀ (i : Instr) (s : State), i.wellFormed = true → i.isCommand = true → s.fg.pc = .idle →
    s.regs.inited = decide (i ≠ .init) →
    exec i s = .next { s with fg := { s.fg with
      pc := firstLabel i, ret := .host, arg := BitVec.ofNat 16 (operandOf i), cmd := commandWord i } }

/-- R180: a legal command whose precondition does not hold changes no state and is answered `ERR_STATE`. -/
def Obligations.LifecycleRefusalChangesNothing : Prop :=
  ∀ (i : Instr) (s : State), i.isCommand = true → s.fg.pc = .idle → s.regs.inited = decide (i = .init) →
    exec i s = .next { s with
      hist := s.hist ++ [.rsp (commandWord i) 0x03]
      port := { s.port with rspValid := true, rspStatus := 0x03 } }

/-- U14, R239 (the meaning of a command that meets a busy FG is the model's: assumption log 7): a command other than the
one FG runs is not accepted, and nothing changes. -/
def Obligations.BusyForegroundAcceptsNothing : Prop :=
  ∀ (i : Instr) (s : State), i.isCommand = true → s.fg.pc ≠ .idle → s.fg.cmd ≠ commandWord i → exec i s = .next s

/-! ### INIT, DEINIT, START, STOP, ACK -/

/-- R181: IN1 issues ACQUIRE; on success every register takes its reset value and `inited` becomes 1, on failure
nothing is written. -/
def Obligations.InitResetsOnSuccess : Prop :=
  ∀ s : State, s.StandsAt .init .in1 .host →
    exec .init s = .next (State.ended
      { s with regs := if s.nextAnswer = 0 then { Regs.reset s.cfg with inited := true } else s.regs }
      [.req ⟨.acquire, 0, 0, 0⟩ s.nextAnswer] (driverStatus s.nextAnswer))

/-- R182: DE1 clears `sync_en`, `tick_en` and `inited` whatever the driver answers, and issues RELEASE. -/
def Obligations.DeinitClearsTheEnables : Prop :=
  ∀ s : State, s.StandsAt .deinit .de1 .host →
    exec .deinit s = .next (State.ended
      { s with regs := { s.regs with syncEn := false, tickEn := false, inited := false } }
      [.req ⟨.release, 0, 0, 0⟩ s.nextAnswer] (driverStatus s.nextAnswer))

/-- R183: ST1 arms the interrupt, ST2 starts the tick with the period; each enable is set after its request succeeds,
and a failure ends START there. -/
def Obligations.StartEnablesBothSources : Prop :=
  ∀ s : State,
    (s.StandsAt .start .st1 .host → s.nextAnswer = 0 →
      exec .start s = .next (State.advanced { s with regs := { s.regs with syncEn := true } }
        [.req ⟨.irqArm, 0, 0, 0⟩ 0] .st2)) ∧
    (s.StandsAt .start .st1 .host → s.nextAnswer ≠ 0 →
      exec .start s = .next (s.ended
        [.req ⟨.irqArm, 0, 0, 0⟩ s.nextAnswer] (driverStatus s.nextAnswer))) ∧
    (s.StandsAt .start .st2 .host →
      exec .start s = .next (State.ended
        { s with regs := { s.regs with tickEn := s.regs.tickEn || decide (s.nextAnswer = 0) } }
        [.req ⟨.tickStart, 0, BitVec.ofNat 32 s.cfg.periodMs, 0⟩ s.nextAnswer]
        (driverStatus s.nextAnswer)))

/-- R184: SO1 disarms the interrupt, SO2 stops the tick; each enable is cleared after its request succeeds, and a
failure ends STOP there. -/
def Obligations.StopDisablesBothSources : Prop :=
  ∀ s : State,
    (s.StandsAt .stop .so1 .host → s.nextAnswer = 0 →
      exec .stop s = .next (State.advanced { s with regs := { s.regs with syncEn := false } }
        [.req ⟨.irqDisarm, 0, 0, 0⟩ 0] .so2)) ∧
    (s.StandsAt .stop .so1 .host → s.nextAnswer ≠ 0 →
      exec .stop s = .next (s.ended
        [.req ⟨.irqDisarm, 0, 0, 0⟩ s.nextAnswer] (driverStatus s.nextAnswer))) ∧
    (s.StandsAt .stop .so2 .host →
      exec .stop s = .next (State.ended
        { s with regs := { s.regs with tickEn := s.regs.tickEn && decide (s.nextAnswer ≠ 0) } }
        [.req ⟨.tickStop, 0, 0, 0⟩ s.nextAnswer] (driverStatus s.nextAnswer)))

/-- R185: AK1 clears `new_scenario` and nothing else. -/
def Obligations.AckClearsNewScenario : Prop :=
  ∀ s : State, s.StandsAt .ack .ak1 .host →
    exec .ack s = .next (State.ended { s with regs := { s.regs with newScenario := false } } [] 0x00)

/-! ### The waveform engine -/

/-- R111, R112: SPEED requests `SPEED_CONV * kmh` at duty 50, or `F_MIN` at duty 0 for `kmh = 0`, exactly and without
a clamp; it stores the pair once the driver has accepted it, and nothing when the driver has refused it. -/
def Obligations.SpeedRealisesTheWind : Prop :=
  ∀ (kmh : Nat) (s : State), s.StandsAt (.speed kmh) .sp1 .host → s.fg.arg.toNat = kmh → s.cfg.Valid →
    ∃ (f : Word32) (d : Duty),
      f.toNat = (if kmh = 0 then s.cfg.fMin else s.cfg.speedConv * kmh) ∧ d.toNat = (if kmh = 0 then 0 else 50) ∧
      let entry := Entry.req ⟨.waveform, 0, f, d.setWidth 32⟩ s.nextAnswer
      (s.nextAnswer = 0 → exec (.speed kmh) s = .next (State.ended
        { s with regs := { s.regs with speedFreq := f, speedDuty := d } } [entry] 0x00)) ∧
      (s.nextAnswer ≠ 0 → exec (.speed kmh) s = .next (s.ended [entry] (driverStatus s.nextAnswer)))

/-- R114: DR0 refuses 360 and above with `ERR_RANGE` before any request, writing no state; below 360 the variant
fixes the policy. -/
def Obligations.DirChecksTheRangeFirst : Prop :=
  ∀ (deg : Nat) (s : State), s.StandsAt (.dir deg) .dr0 .host → s.fg.arg.toNat = deg →
    (360 ≤ deg → exec (.dir deg) s = .next (s.ended [] 0x01)) ∧
    (deg < 360 → s.cfg.variant = .bank →
      exec (.dir deg) s = .next (State.advanced { s with fg := { s.fg with i := 0 } } [] .db)) ∧
    (deg < 360 → s.cfg.variant = .shared → exec (.dir deg) s = .next (s.advanced [] .ds1))

/-- R115, R118: DIR under `BANK`, run alone from DR0 with a driver that accepts all eight requests, writes the eight
banks in ascending order, each at its level, and leaves selected exactly the banks whose window contains the bearing. -/
def Obligations.DirSelectsTheBanksInTheWindow : Prop :=
  ∀ (deg : Nat) (s : State) (rest : List Answer), s.StandsAt (.dir deg) .dr0 .host → deg < 2 ^ 16 →
    s.fg.arg.toNat = deg → deg < 360 →
    s.cfg.variant = .bank → s.agenda = [] → s.answers = List.replicate 8 (0 : Answer) ++ rest →
    ∃ (sel : BitVec 8) (t : State),
      (∀ j : Fin 8, sel.getLsbD j = true ↔ InWindow s.cfg.bankBearing[j] s.cfg.dirTol deg) ∧
      Host.Core.run Sys2Proof.core 9 s = .next t ∧
      t.regs = { s.regs with outBankSel := sel } ∧ t.fg.pc = .idle ∧ t.cfg = s.cfg ∧ t.sync = s.sync ∧
      t.port = { s.port with rspValid := true, rspStatus := 0x00 } ∧ t.answers = rest ∧ t.agenda = [] ∧
      let write : Fin 8 → Request := fun j => ⟨.bankWrite, BitVec.ofNat 4 j, levelOf s.cfg (sel.getLsbD j), 0⟩
      t.hist = s.hist ++ ((List.finRange 8).map (fun j => Entry.req (write j) 0) ++
        [Entry.rsp (commandWord (.dir deg)) 0x00])

/-- R115, R205: one turn of DIR's bank loop: an accepted request writes one bit of `out_bank_sel` and goes on, or ends
DIR at bank 7; a refused one ends DIR and leaves the banks as the earlier turns wrote them. -/
def Obligations.DirWritesOneBankPerTurn : Prop :=
  ∀ (deg : Nat) (s : State) (j : Fin 8), s.StandsAt (.dir deg) .db .host → s.fg.arg.toNat = deg →
    s.fg.i = BitVec.ofNat 4 j →
    ∃ sel : Bool, (sel = true ↔ InWindow s.cfg.bankBearing[j] s.cfg.dirTol deg) ∧
      let entry := Entry.req
        ⟨.bankWrite, BitVec.ofNat 4 j, levelOf s.cfg sel, 0⟩ s.nextAnswer
      (s.nextAnswer ≠ 0 → exec (.dir deg) s = .next (s.ended [entry] (driverStatus s.nextAnswer))) ∧
      (s.nextAnswer = 0 → ∃ b : BitVec 8,
        (∀ k, k < 8 → b.getLsbD k = if k = j then sel else s.regs.outBankSel.getLsbD k) ∧
        let t := { s with regs := { s.regs with outBankSel := b }, fg := { s.fg with i := BitVec.ofNat 4 (j + 1) } }
        exec (.dir deg) s = .next (if j.val = 7 then t.ended [entry] 0x00 else t.advanced [entry] .db))

/-- R120: DIR under `SHARED` programs channel DIRECTION at the shadow's frequency with the duty
`(speed_duty_r + 100 - p) mod 100`, 1 in place of 0; it stores both once the driver has accepted them, and nothing when
the driver has refused them. -/
def Obligations.DirProgramsTheSharedDuty : Prop :=
  ∀ (deg : Nat) (s : State), s.StandsAt (.dir deg) .ds1 .host → s.fg.arg.toNat = deg → deg < 360 →
    ∃ d : Duty,
      (let x := (s.regs.speedDuty.toNat + 100 - deg * 100 / 360) % 100
       d.toNat = if x = 0 then 1 else x) ∧
      let entry := Entry.req ⟨.waveform, 1, s.regs.speedFreq, d.setWidth 32⟩ s.nextAnswer
      (s.nextAnswer = 0 → exec (.dir deg) s = .next (State.ended
        { s with regs := { s.regs with outDirFreq := s.regs.speedFreq, outDirDuty := d } } [entry] 0x00)) ∧
      (s.nextAnswer ≠ 0 → exec (.dir deg) s = .next (s.ended [entry] (driverStatus s.nextAnswer)))

/-- R117 (derived by the spec from R116): the window test in naturals equals the one over the integers, and the
machine's test is that one. -/
def Obligations.WindowTestsAgree : Prop :=
  ∀ b tol deg : Nat, b < 360 → 1 ≤ tol → tol ≤ 179 → deg < 360 →
    (inWindow b tol deg = true ↔ InWindow b tol deg) ∧ (windowInNaturals b tol deg = true ↔ InWindow b tol deg)

/-- R122, R125: RAIN's five micro-steps: RN1 raises the target by `mm * 1000`; RN2 asks for a pulse while the
accumulated depth is below the target, and ends RAIN when it is not; RN3 requests one pulse and counts it, or ends RAIN
when the driver refuses it; RN4 advances the accumulated depth by one pulse; RN5 waits, doing nothing, until the pulse
has completed. A sum that does not fit is `fault Overflow`. -/
def Obligations.RainTakesItsFiveMicroSteps : Prop :=
  ∀ (mm : Nat) (s : State), s.fg.arg.toNat = mm →
    let target := s.regs.rainTargetUm.toNat + mm * 1000
    let depth := s.regs.rainAccUm.toNat + s.cfg.edgeToUm
    let entry := Entry.req
      ⟨.pulse, 2, BitVec.ofNat 32 s.cfg.rainPulseHigh, BitVec.ofNat 32 s.cfg.rainPulseLow⟩ s.nextAnswer
    (s.StandsAt (.rain mm) .rn1 .host → target < 2 ^ 32 → exec (.rain mm) s = .next (State.advanced
      { s with regs := { s.regs with rainTargetUm := BitVec.ofNat 32 target } } [] .rn2)) ∧
    (s.StandsAt (.rain mm) .rn1 .host → 2 ^ 32 ≤ target → exec (.rain mm) s = .fault .overflow) ∧
    (s.StandsAt (.rain mm) .rn2 .host → exec (.rain mm) s = .next
      (if s.regs.rainAccUm.toNat < s.regs.rainTargetUm.toNat then s.advanced [] .rn3 else s.ended [] 0x00)) ∧
    (s.StandsAt (.rain mm) .rn3 .host → s.nextAnswer = 0 → exec (.rain mm) s = .next (State.advanced
      { s with regs := { s.regs with
        rainInflight := true
        rainPulseTotal := BitVec.ofNat 32 (min (s.regs.rainPulseTotal.toNat + 1) (2 ^ 32 - 1)) } } [entry] .rn4)) ∧
    (s.StandsAt (.rain mm) .rn3 .host → s.nextAnswer ≠ 0 →
      exec (.rain mm) s = .next (s.ended [entry] (driverStatus s.nextAnswer))) ∧
    (s.StandsAt (.rain mm) .rn4 .host → depth < 2 ^ 32 → exec (.rain mm) s = .next (State.advanced
      { s with regs := { s.regs with rainAccUm := BitVec.ofNat 32 depth } } [] .rn5)) ∧
    (s.StandsAt (.rain mm) .rn4 .host → 2 ^ 32 ≤ depth → exec (.rain mm) s = .fault .overflow) ∧
    (s.StandsAt (.rain mm) .rn5 .host →
      exec (.rain mm) s = .next (if s.regs.rainInflight then s else s.advanced [] .rn2))

/-- R124 (derived by the spec from R122): RAIN offered to an idle FG, with a driver that accepts every pulse and an
environment that completes each at once (R94's prompt one), emits exactly the least number of pulses that lifts the
accumulated depth to the target, ends there, and answers `OK`. -/
def Obligations.RainEmitsTheLeastNumberOfPulses : Prop :=
  ∀ (mm n target : Nat) (s : State) (rest : List Answer), mm < 2 ^ 16 → s.fg.pc = .idle → s.regs.inited = true →
    s.regs.rainInflight = false → s.cfg.Valid → target = s.regs.rainTargetUm.toNat + mm * 1000 →
    n = pulseCount s.regs.rainAccUm.toNat target s.cfg.edgeToUm → target < 2 ^ 32 →
    s.regs.rainAccUm.toNat + n * s.cfg.edgeToUm < 2 ^ 32 → s.answers = List.replicate n 0 ++ rest →
    s.agenda = .offer (commandWord (.rain mm)) :: .fg :: (pulseTurns n ++ [Move.fg]) →
    ∃ t : State, Host.Core.run Sys2Proof.core (5 * n + 3) s = .next t ∧
      t.regs = { s.regs with
        rainAccUm := BitVec.ofNat 32 (s.regs.rainAccUm.toNat + n * s.cfg.edgeToUm)
        rainTargetUm := BitVec.ofNat 32 target
        rainPulseTotal := BitVec.ofNat 32 (min (s.regs.rainPulseTotal.toNat + n) (2 ^ 32 - 1)) } ∧
      t.fg.pc = .idle ∧ t.answers = rest ∧ t.agenda = [] ∧
      let pulse : Request :=
        ⟨.pulse, 2, BitVec.ofNat 32 s.cfg.rainPulseHigh, BitVec.ofNat 32 s.cfg.rainPulseLow⟩
      t.hist = s.hist ++ (List.replicate n (Entry.req pulse 0) ++ [Entry.rsp (commandWord (.rain mm)) 0x00])

/-- R124 (derived by the spec from R122): the remainder is carried from call to call: however rain that starts from
both depths zero is split into RAIN commands, run one after another in the prompt environment (R94) with every request
accepted, the `PULSE` requests that `H` gains are `ceil` of the whole, every command is answered `OK`, and no other
request is issued. -/
def Obligations.RainIsAdditive : Prop :=
  ∀ (mms : List Nat) (n : Nat) (s : State) (rest : List Answer), (∀ mm ∈ mms, mm < 2 ^ 16) → s.fg.pc = .idle →
    s.regs.inited = true → s.regs.rainInflight = false → s.regs.rainAccUm = 0 → s.regs.rainTargetUm = 0 →
    s.cfg.Valid → n = ceilDiv (mms.sum * 1000) s.cfg.edgeToUm → n * s.cfg.edgeToUm < 2 ^ 32 →
    s.answers = List.replicate n 0 ++ rest → s.agenda = promptRains s.cfg.edgeToUm 0 0 mms →
    ∃ (t : State) (es : List Entry), Host.Core.run Sys2Proof.core (5 * n + 3 * mms.length) s = .next t ∧
      t.hist = s.hist ++ es ∧ es.countP Entry.isPulse = n ∧
      es.filter (fun e => !e.isPulse) = mms.map (fun mm => Entry.rsp (commandWord (.rain mm)) 0x00) ∧
      t.regs = { s.regs with
        rainAccUm := BitVec.ofNat 32 (n * s.cfg.edgeToUm)
        rainTargetUm := BitVec.ofNat 32 (mms.sum * 1000)
        rainPulseTotal := BitVec.ofNat 32 (min (s.regs.rainPulseTotal.toNat + n) (2 ^ 32 - 1)) } ∧
      t.fg.pc = .idle ∧ t.answers = rest ∧ t.agenda = []

/-- R126: RAINRST zeroes both depths and nothing else, and cannot fail. -/
def Obligations.RainrstZeroesTheDepths : Prop :=
  ∀ s : State, s.StandsAt .rainrst .rr1 .host →
    exec .rainrst s = .next (State.ended { s with regs := { s.regs with rainAccUm := 0, rainTargetUm := 0 } } [] 0x00)

/-! ### The scheduler -/

/-- R156: EV1 ends the pass before the first synchronization, with nothing written, and goes to EV2 after it. -/
def Obligations.EvaluateStopsBeforeTheFirstEdge : Prop :=
  ∀ s : State, s.StandsAt .proc .ev1 .host →
    (s.regs.firstSyncSeen = false → exec .proc s = .next (s.ended [] 0x00)) ∧
    (s.regs.firstSyncSeen = true → exec .proc s = .next (s.advanced [] .ev2))

/-- R157: EV2 consumes a pending edge: the clock, the currents and both depths become 0, the ramp goes up, each peak
advances by one modulo its maximum plus one, and the scenario is marked new; with no edge pending nothing is written. -/
def Obligations.EvaluateAcceptsAPendingEdge : Prop :=
  ∀ s : State, s.StandsAt .proc .ev2 .host → s.cfg.Valid →
    (s.regs.pending = true → ∃ p d r : Half,
      p.toNat = (s.regs.peakSpeed.toNat + 1) % (s.cfg.peakSpeedMax + 1) ∧
      d.toNat = (s.regs.peakDirectionIndex.toNat + 1) % s.cfg.nDir ∧
      r.toNat = (s.regs.peakRainfall.toNat + 1) % (s.cfg.peakRainMax + 1) ∧
      exec .proc s = .next (State.advanced { s with regs := { s.regs with
        pending := false, elapsedMs := 0, currentSpeed := 0, rampDirection := .up, currentRainfall := 0
        rainAccUm := 0, rainTargetUm := 0, peakSpeed := p, peakDirectionIndex := d, peakRainfall := r
        newScenario := true } } [] .ev3)) ∧
    (s.regs.pending = false → exec .proc s = .next (s.advanced [] .ev3))

/-- R158: EV3 arms the gate when `elapsed_ms` is strictly above the guard, and writes nothing else. -/
def Obligations.EvaluateRearmsAfterTheGuard : Prop :=
  ∀ s : State, s.StandsAt .proc .ev3 .host →
    exec .proc s = .next (State.advanced { s with regs := { s.regs with
      armed := s.regs.armed || decide (s.cfg.debounceMs < s.regs.elapsedMs.toNat) } } [] .ev4)

/-- R159, R160: EV4 ends the pass when no period is pending; else it clears the flag and takes one ramp step, by the
first of the four arms that applies. -/
def Obligations.EvaluateStepsTheRamp : Prop :=
  ∀ s : State, s.StandsAt .proc .ev4 .host →
    (s.regs.periodFlag = false → exec .proc s = .next (s.ended [] 0x00)) ∧
    (s.regs.periodFlag = true →
      let r := { s.regs with periodFlag := false }
      let p := s.regs.peakSpeed
      let c := s.regs.currentSpeed
      exec .proc s = .next (State.advanced { s with regs :=
        if p = 0 then r
        else if p ≤ c then { r with currentSpeed := p - 1, rampDirection := .down }
        else if c = 0 then { r with currentSpeed := 1, rampDirection := .up }
        else if s.regs.rampDirection = .up then { r with currentSpeed := c + 1 }
        else { r with currentSpeed := c - 1 } } [] .ev5))

/-- R161, R162, R164: EV5 calls SPEED with `current_speed`, EV6 calls DIR with the table's bearing, EV8 calls RAIN with
1; a call writes no register. -/
def Obligations.EvaluateCallsTheEngine : Prop :=
  ∀ s : State,
    (s.StandsAt .proc .ev5 .host → exec .proc s = .next { s with fg := { s.fg with
      pc := .sp1, ret := .proc, arg := s.regs.currentSpeed } }) ∧
    (s.StandsAt .proc .ev6 .host → ∀ h : s.regs.peakDirectionIndex.toNat < s.cfg.dirTable.length,
      exec .proc s = .next { s with fg := { s.fg with
        pc := .dr0, ret := .proc, arg := BitVec.ofNat 16 s.cfg.dirTable[s.regs.peakDirectionIndex.toNat] } }) ∧
    (s.StandsAt .proc .ev8 .host → exec .proc s = .next { s with fg := { s.fg with
      pc := .rn1, ret := .proc, arg := 1 } })

/-- R40, R161, R162, R164: an operation that PROC called returns to PROC after `OK`: SPEED at EV6, DIR (its last bank,
or the shared duty) at EV7, RAIN at EV9. That the callee's return and PROC's test of the status are one transition, and
that the link is the host again after it, is not the spec's word but the model's deduction (DEDUCED: assumption log 9).
Which registers are written is `CalledOperationWritesTheSame`. -/
def Obligations.CalledOperationReturnsToEvaluate : Prop :=
  ∀ s : State,
    (s.StandsAt .proc .sp1 .proc → s.nextAnswer = 0 → ∃ r regs, s.heldRequest = some r ∧
      exec .proc s = .next (State.advanced { s.backInProc with regs := regs } [.req r 0] .ev6)) ∧
    (s.StandsAt .proc .db .proc → s.fg.i = 7 → s.nextAnswer = 0 → ∃ r regs, s.heldRequest = some r ∧
      exec .proc s = .next (State.advanced
        { s with regs := regs, fg := { s.fg with ret := .host, i := 8 } } [.req r 0] .ev7)) ∧
    (s.StandsAt .proc .ds1 .proc → s.nextAnswer = 0 → ∃ r regs, s.heldRequest = some r ∧
      exec .proc s = .next (State.advanced { s.backInProc with regs := regs } [.req r 0] .ev7)) ∧
    (s.StandsAt .proc .rn2 .proc → s.regs.rainTargetUm.toNat ≤ s.regs.rainAccUm.toNat →
      exec .proc s = .next (s.backInProc.advanced [] .ev9))

/-- R110: a micro-step of SPEED, DIR or RAIN does the same whether the host or PROC called the operation, and differs
only in where its status goes. It faults under both or neither; where it does not end the operation, the two next states
are one but for the link and the command word; where it ends with status `st`, the host's caller gets `Rsp` with `st`,
and PROC goes on after `OK` and answers `st` itself otherwise. That the return and PROC's test are this one transition,
with the link the host again, is the model's deduction (DEDUCED: assumption log 9). -/
def Obligations.CalledOperationWritesTheSame : Prop :=
  ∀ (i : Instr) (s : State), s.fg.pc.callable = true → runsAt i s.fg.pc .host = true →
    let byHost := exec i { s with fg := { s.fg with ret := .host, cmd := commandWord i } }
    let byProc := exec .proc { s with fg := { s.fg with ret := .proc, cmd := commandWord .proc } }
    (∀ f, byHost = .fault f → byProc = .fault f) ∧
    (∀ t, byHost = .next t → t.fg.pc ≠ .idle →
      byProc = .next { t with fg := { t.fg with ret := .proc, cmd := commandWord .proc } }) ∧
    (∀ t, byHost = .next t → t.fg.pc = .idle → ∃ (es : List Entry) (st : StatusByte),
      t.hist = s.hist ++ es ++ [.rsp (commandWord i) st] ∧
      t.port = { s.port with rspValid := true, rspStatus := st } ∧
      byProc = .next (if st = 0x00
        then { t with
          hist := s.hist ++ es
          port := s.port
          fg := { t.fg with pc := continuation i, cmd := commandWord .proc } }
        else { t with
          hist := s.hist ++ es ++ [.rsp (commandWord .proc) st]
          fg := { t.fg with cmd := commandWord .proc } }))

/-- R110, R166: a driver error in an operation that PROC called ends PROC with that error, with no register written by
the failing micro-step. That PROC's answer to the host comes in the callee's own transition, with the link the host
again, is not the spec's word but the model's deduction (DEDUCED: assumption log 9). -/
def Obligations.FailedCallEndsThePass : Prop :=
  ∀ s : State, s.fg.pc ∈ [Label.sp1, .db, .ds1, .rn3] → s.fg.ret = .proc → s.fg.cmd = commandWord .proc →
    s.nextAnswer ≠ 0 → ∃ r, s.heldRequest = some r ∧
      exec .proc s = .next (s.backInProc.ended [.req r s.nextAnswer] (driverStatus s.nextAnswer))

/-- R163: EV7 lets a millimetre fall only when `elapsed_ms` is strictly above the delay and the scenario's rain is not
all emitted; else the pass ends. -/
def Obligations.RainWaitsForTheDelay : Prop :=
  ∀ s : State, s.StandsAt .proc .ev7 .host →
    exec .proc s = .next (if s.cfg.rainDelayMs < s.regs.elapsedMs.toNat ∧
        s.regs.currentRainfall.toNat < s.regs.peakRainfall.toNat
      then s.advanced [] .ev8 else s.ended [] 0x00)

/-- R165: EV9 counts the millimetre and ends the pass. -/
def Obligations.EvaluateCountsTheMillimetre : Prop :=
  ∀ s : State, s.StandsAt .proc .ev9 .host →
    exec .proc s = .next (State.ended
      { s with regs := { s.regs with currentRainfall := s.regs.currentRainfall + 1 } } [] 0x00)

/-- R167 (derived by the spec from R160): from speed 0 going up, the ramp is the triangle `1, 2, ..., P, ..., 1, 0` of
period `2 P`, with the flag up exactly on the way to the peak. -/
def Obligations.RampIsATriangle : Prop :=
  ∀ p k : Nat, 1 ≤ p →
    (rampAfter p k).1 = triangle p k ∧
    (1 ≤ k → ((rampAfter p k).2 = .up ↔ 1 ≤ k % (2 * p) ∧ k % (2 * p) ≤ p))

/-- R168 (derived by the spec from R157): after the `j`-th accepted edge from reset each peak is `j` modulo its own
number of values. -/
def Obligations.PeaksCountTheEdges : Prop :=
  ∀ (c : Params) (j : Nat), c.Valid →
    let r := edgesAccepted c (Regs.reset c) j
    r.peakSpeed.toNat = j % (c.peakSpeedMax + 1) ∧ r.peakDirectionIndex.toNat = j % c.nDir ∧
      r.peakRainfall.toNat = j % (c.peakRainMax + 1)

/-- R172, first sentence (derived by the spec from R155 to R165): before the first synchronization, any number of TICK
events and PROC commands leave every register but `elapsed_ms` and `period_flag` unchanged, and issue no request. -/
def Obligations.ProcIsANoOpBeforeTheFirstEdge : Prop :=
  ∀ (k : Nat) (s t : State), s.fg.pc = .idle → s.regs.inited = true → s.regs.firstSyncSeen = false →
    (∀ m ∈ s.agenda, m = .events 0b010 ∨ m = .fg ∨ m = .offer (commandWord .proc)) →
    Host.Core.run Sys2Proof.core k s = .next t →
    t.regs = { s.regs with elapsedMs := t.regs.elapsedMs, periodFlag := t.regs.periodFlag } ∧
      ∃ n, t.hist = s.hist ++ List.replicate n (.rsp (commandWord .proc) 0x00)

/-- R232 (derived by the spec from R140, R157, R158): the re-arm race: an edge that is effective between EV2 and EV3 of
a pass that sees the old scenario's time above the guard leaves `pending` and `armed` both 1. -/
def Obligations.RearmRaceLeavesTheGateOpen : Prop :=
  ∀ (s : State) (rest : List Move), s.StandsAt .proc .ev2 .host → s.regs.pending = false → s.regs.armed = true →
    s.regs.syncEn = true → s.cfg.debounceMs < s.regs.elapsedMs.toNat →
    s.agenda = .fg :: .events 0b001 :: .fg :: rest →
    ∃ t, Host.Core.run Sys2Proof.core 3 s = .next t ∧ t.regs.pending = true ∧ t.regs.armed = true ∧
      t.fg.pc = .ev4 ∧ t.hist = s.hist

/-- R171 (derived by the spec from R140, R157, R158): in a clean run, one in which no effective SYNC falls between the
EV2 and the EV3 of a pass, `pending = 1` implies `armed = 0` at every boundary. -/
def Obligations.GateStaysClosedInCleanRuns : Prop :=
  ∀ s t : State, (s.regs.pending = true → s.regs.armed = false) → (s.fg.pc = .ev3 → s.regs.pending = false) →
    (∀ u, s.fg.pc = .ev3 → s.nextTask = .run .sync u → s.regs.syncEn = false ∨ s.regs.armed = false) →
    step s = .next t →
    (t.regs.pending = true → t.regs.armed = false) ∧ (t.fg.pc = .ev3 → t.regs.pending = false)

/-! ### The events -/

/-- R140, R141: SYNC sets `pending` and `first_sync_seen` and clears `armed` when the source is enabled and the gate
armed; else it changes nothing. -/
def Obligations.SyncActsOnlyWhileArmed : Prop :=
  ∀ s : State,
    (s.regs.syncEn = true ∧ s.regs.armed = true → exec .sync s = .next { s with regs := { s.regs with
      pending := true, armed := false, firstSyncSeen := true } }) ∧
    (s.regs.syncEn = false ∨ s.regs.armed = false → exec .sync s = .next s)

/-- R143: TICK sets `period_flag` and advances `elapsed_ms` by one period when the tick is enabled, and is `fault
Overflow` when the sum does not fit; when the tick is not enabled it changes nothing. -/
def Obligations.TickAdvancesTheClock : Prop :=
  ∀ s : State, let n := s.regs.elapsedMs.toNat + s.cfg.periodMs
    (s.regs.tickEn = true → n < 2 ^ 32 → exec .tick s = .next
      { s with regs := { s.regs with periodFlag := true, elapsedMs := BitVec.ofNat 32 n } }) ∧
    (s.regs.tickEn = true → 2 ^ 32 ≤ n → exec .tick s = .fault .overflow) ∧
    (s.regs.tickEn = false → exec .tick s = .next s)

/-- R146, R147: DONE clears `rain_inflight`; with no pulse in flight it changes nothing. -/
def Obligations.DoneCompletesThePulse : Prop :=
  ∀ s : State,
    (s.regs.rainInflight = true → exec .done s = .next { s with regs := { s.regs with rainInflight := false } }) ∧
    (s.regs.rainInflight = false → exec .done s = .next s)

/-- R148 (derived by the spec from R140, R143, R146): any two different events commute. -/
def Obligations.EventsCommute : Prop :=
  ∀ (i j : Instr) (s t u : State), i.isCommand = false → j.isCommand = false → i ≠ j →
    exec i s = .next t → exec j t = .next u → ∃ t', exec j s = .next t' ∧ exec i t' = .next u

/-! ### The whole machine -/

/-- R200: there is one model fault, and no step stops for any other reason: a step answers a next state, or it is
a TICK, an RN1 or an RN4 whose sum does not fit. -/
def Obligations.OnlyOverflowStopsTheMachine : Prop :=
  ∀ s : State, (∃ t, step s = .next t) ∨
    (step s = .fault .overflow ∧
      ((∃ u, s.nextTask = .run .tick u ∧ 2 ^ 32 ≤ s.regs.elapsedMs.toNat + s.cfg.periodMs) ∨
        (s.fg.pc = .rn1 ∧ 2 ^ 32 ≤ s.regs.rainTargetUm.toNat + s.fg.arg.toNat * 1000) ∨
        (s.fg.pc = .rn4 ∧ 2 ^ 32 ≤ s.regs.rainAccUm.toNat + s.cfg.edgeToUm)))

/-- R229 (derived by the spec): the invariants of R229, with what they rest on of FG's position, hold at reset. -/
def Obligations.InvariantHoldsAtReset : Prop :=
  Inv State.reset ∧ ∀ c : Params, c.Valid → Inv (State.resetWith c)

/-- R229 (derived by the spec): every step of every agent keeps the invariants of R229, under every interleaving, every
driver answer and every parameter. -/
def Obligations.InvariantIsKeptByEveryStep : Prop :=
  ∀ s t : State, Inv s → step s = .next t → Inv t

/-- R45 (derived by the spec from R38, R39, R42): the output registers are functions of the history: the registers that
the history stands for are the machine's, and every step keeps it so. -/
def Obligations.OutputRegistersReplayTheHistory : Prop :=
  ∀ s t : State, s.regs.outputs = replay s.cfg s.hist → step s = .next t → t.regs.outputs = replay t.cfg t.hist

/-- R45, R61: without a reset the history only grows; the parameters and their tables never change. -/
def Obligations.HistoryOnlyGrows : Prop :=
  ∀ s t : State, step s = .next t → t.cfg = s.cfg ∧ (s.resetNext = false → ∃ es, t.hist = s.hist ++ es)

/-- R42, R50: the count of emitted pulses never decreases, but by reset or a successful INIT. -/
def Obligations.PulseTotalNeverDecreases : Prop :=
  ∀ s t : State, step s = .next t → s.resetNext = false → s.fg.pc ≠ .in1 →
    s.regs.rainPulseTotal.toNat ≤ t.regs.rainPulseTotal.toNat

/-- R123: a pulse is never requested while another is in flight, and no transition requests two. -/
def Obligations.PulsesAreSerialised : Prop :=
  ∀ (s t : State) (es : List Entry), Inv s → step s = .next t → t.hist = s.hist ++ es →
    es.countP Entry.isPulse ≤ 1 ∧ (es.countP Entry.isPulse = 1 → s.regs.rainInflight = false)

/-- R155: `ERR_RANGE` cannot come out of PROC: no transition appends that answer, whatever else it appends. -/
def Obligations.ProcNeverReportsARangeError : Prop :=
  ∀ (s t : State) (es : List Entry), Inv s → step s = .next t → t.hist = s.hist ++ es →
    Entry.rsp (commandWord .proc) 0x01 ∉ es

/-- R71, R169: FG with no other agent moving changes the state at every turn, but at `IDLE` and in RN5's wait for a
pulse in flight. -/
def Obligations.ForegroundWaitsOnlyForAPulse : Prop :=
  ∀ s : State, Inv s → s.agenda = [] → step s = .next s →
    s.fg.pc = .idle ∨ (s.fg.pc = .rn5 ∧ s.regs.rainInflight = true)

/-- R46, R226, R88: what reset leaves. (FG's unread fields and the pins, whose value the spec leaves open, are not
spoken of: assumption log 3 and 4.) -/
def Obligations.ResetLeavesTheListedValues : Prop :=
  ∀ c : Params, let s := State.resetWith c
    s.regs = { peakSpeed := 0, peakDirectionIndex := 0, peakRainfall := 0, currentSpeed := 0, currentRainfall := 0
               rampDirection := .up, elapsedMs := 0, armed := true, pending := false, firstSyncSeen := false
               periodFlag := false, newScenario := false, rainAccUm := 0, rainTargetUm := 0, rainInflight := false
               rainPulseTotal := 0, speedFreq := BitVec.ofNat 32 c.fMin, speedDuty := 0, outBankSel := 0
               outDirFreq := 0, outDirDuty := 0, inited := false, syncEn := false, tickEn := false } ∧
      s.fg.pc = .idle ∧ s.hist = [] ∧ s.readRegister 0 = 0x00000008 ∧
      s.sync = (match c.syncEdgePol with
        | .rising => { m := false, s := false, prev := false }
        | .falling => { m := true, s := true, prev := true })

/-- R64, R87, R88, R89: `reg_rdata` is at every moment the register that `reg_addr` selects, zero-extended; a register
read by the host puts the address there and changes nothing else; the map is given field by field, as naturals. -/
def Obligations.RegisterReadShowsTheMap : Prop :=
  ∀ s : State, let r := s.regs; let bit := fun (n : Nat) (b : Bool) => if b then 2 ^ n else 0
    (∀ (a : BitVec 4) (rest : List Move), s.agenda = .read a :: rest →
      let t := { s with agenda := rest, port := { s.port with regAddr := a } }
      step s = .next t ∧ t.regRdata = s.readRegister a) ∧
    s.regRdata = s.readRegister s.port.regAddr ∧
    (s.readRegister 0).toNat = bit 0 r.inited + bit 1 r.syncEn + bit 2 r.tickEn + bit 3 r.armed + bit 4 r.pending +
      bit 5 r.firstSyncSeen + bit 6 r.periodFlag + bit 7 r.newScenario + bit 8 (r.rampDirection = .down) +
      bit 9 r.rainInflight + bit 10 (s.fg.pc ≠ .idle) ∧
    (s.readRegister 1).toNat = r.peakSpeed.toNat ∧ (s.readRegister 2).toNat = r.peakDirectionIndex.toNat ∧
    (s.readRegister 3).toNat = r.peakRainfall.toNat ∧ (s.readRegister 4).toNat = r.currentSpeed.toNat ∧
    (s.readRegister 5).toNat = r.currentRainfall.toNat ∧ s.readRegister 6 = r.elapsedMs ∧
    s.readRegister 7 = r.rainAccUm ∧ s.readRegister 8 = r.rainTargetUm ∧ s.readRegister 9 = r.rainPulseTotal ∧
    s.readRegister 10 = r.speedFreq ∧ (s.readRegister 11).toNat = r.speedDuty.toNat ∧
    (s.readRegister 12).toNat = r.outBankSel.toNat + 2 ^ 8 * r.outDirDuty.toNat ∧ s.readRegister 13 = r.outDirFreq ∧
    (s.readRegister 14).toNat = bit 0 (s.cfg.variant = .shared) + bit 1 s.cfg.bankActiveLevel +
      bit 2 (s.cfg.syncEdgePol = .falling) ∧
    s.readRegister 15 = 0

/-- R85, R142: an edge of `sync_in` of the configured polarity raises SYNC two cycles later, once, whatever the other
pins do, and a level that stays raises none. -/
def Obligations.EdgeDetectorRaisesSyncTwoCyclesLater : Prop :=
  ∀ (c : Params) (y : Synchroniser) (p q : Pins), let active := decide (c.syncEdgePol = .rising)
    y.m = !active → y.s = !active →
    ((y.shift active).edge c = false) ∧
    (((y.shift active).shift p.syncIn).edge c = true) ∧
    ((((y.shift active).shift p.syncIn).shift q.syncIn).edge c = false)

/-- R70, R85, R86, R91: a clock cycle with `rst_n` at 1 shifts the synchroniser and brings the cycle's events, then
FG's transition: an idle FG accepts an offered command, a busy FG takes its micro-step unless it waits for the driver.
With `rst_n` at 0 everything the block holds is at its reset value (R97). In both, `reg_rdata` is the register that the
cycle's address selects, as the state stands (R87): `STATUS` reads 0x00000008 in a reset cycle (R88). -/
def Obligations.ClockCycleBringsEventsThenForeground : Prop :=
  ∀ (s : State) (p : Pins) (rest : List Move), s.agenda = .cycle p :: rest →
    ∃ t, step s = .next t ∧
      (p.rstN = false → t.regs = Regs.reset s.cfg ∧ t.fg.pc = .idle ∧ t.sync = Synchroniser.reset s.cfg ∧
        t.hist = [] ∧ t.agenda = rest ∧ t.regRdata = (State.resetWith s.cfg).readRegister p.regAddr ∧
        (p.regAddr = 0 → t.regRdata = 0x00000008)) ∧
      (p.rstN = true → t.regs = s.regs ∧ t.fg = s.fg ∧ t.hist = s.hist ∧
        t.sync = { m := p.syncIn, s := s.sync.m, prev := s.sync.s } ∧ t.port.rspValid = false ∧
        t.regRdata = s.readRegister p.regAddr ∧
        ∃ (v : EventVector) (ms : List Move), t.agenda = .events v :: (ms ++ rest) ∧
          v.getLsbD 0 = s.sync.edge s.cfg ∧ v.getLsbD 1 = p.tickIn ∧ v.getLsbD 2 = p.pulseDoneIn ∧
          (s.fg.pc = .idle → ms = if p.cmdValid then [.offer p.cmdWord] else []) ∧
          (s.fg.pc ≠ .idle → s.heldRequest = none → ms = [.fg] ∧ t.answers = s.answers) ∧
          (∀ r, s.heldRequest = some r → if p.drvRspValid then ms = [.fg] ∧ t.nextAnswer = p.drvRspStatus
            else ms = [] ∧ t.answers = s.answers))
end

