-- ==== Sys2Proof/Laws/Config.lean ====
section
/-! SUPPORT. The parameters meet their constraints (R12, R13). -/

namespace Sys2Proof.Config

theorem clampTo_bounds {lo hi n : Nat} (h : lo ≤ hi) : lo ≤ clampTo lo hi n ∧ clampTo lo hi n ≤ hi := by
  unfold clampTo; omega

theorem clampTo_eq_self {lo hi n : Nat} (h : lo ≤ n) (h' : n ≤ hi) : clampTo lo hi n = n := by
  unfold clampTo; omega

/-- Clamped parameters are valid. -/
theorem Params.clamp_valid (c : Params) : c.clamp.Valid where
  speedConv := by
    have := clampTo_bounds (lo := 1) (hi := 2 ^ 16 - 1) (n := c.speedConv) (by decide)
    simp only [Params.clamp]; omega
  fMin := by
    have := clampTo_bounds (lo := 1) (hi := 2 ^ 32 - 1) (n := c.fMin) (by decide)
    simp only [Params.clamp]; omega
  bankBearing := by
    intro b hb
    simp only [Params.clamp, Vector.toList_map, List.mem_map] at hb
    obtain ⟨a, -, rfl⟩ := hb
    omega
  dirTol := clampTo_bounds (by decide)
  nDir := by
    simp only [Params.nDir, Params.clamp]
    split
    · simpa using by assumption
    · decide
  dirTable := by
    intro d hd
    simp only [Params.clamp] at hd
    split at hd
    · obtain ⟨a, -, rfl⟩ := List.mem_map.mp hd
      omega
    · simp only [List.mem_singleton] at hd; omega
  peakSpeedMax := by
    have := clampTo_bounds (lo := 0) (hi := 2 ^ 16 - 2) (n := c.peakSpeedMax) (by decide)
    simp only [Params.clamp]; omega
  peakRainMax := by
    have := clampTo_bounds (lo := 0) (hi := 2 ^ 16 - 2) (n := c.peakRainMax) (by decide)
    simp only [Params.clamp]; omega
  periodMs := by
    have := clampTo_bounds (lo := 1) (hi := 2 ^ 32 - 1) (n := c.periodMs) (by decide)
    simp only [Params.clamp]; omega
  debounceMs := by
    have := clampTo_bounds (lo := 0) (hi := 2 ^ 32 - 1) (n := c.debounceMs) (by decide)
    simp only [Params.clamp]; omega
  rainDelayMs := by
    have := clampTo_bounds (lo := 0) (hi := 2 ^ 32 - 1) (n := c.rainDelayMs) (by decide)
    simp only [Params.clamp]; omega
  edgeToUm := by
    have := clampTo_bounds (lo := 1) (hi := 2 ^ 32 - 1) (n := c.edgeToUm) (by decide)
    simp only [Params.clamp]; omega
  rainPulseHigh := by
    have := clampTo_bounds (lo := 0) (hi := 2 ^ 32 - 1) (n := c.rainPulseHigh) (by decide)
    simp only [Params.clamp]; omega
  rainPulseLow := by
    have := clampTo_bounds (lo := 0) (hi := 2 ^ 32 - 1) (n := c.rainPulseLow) (by decide)
    simp only [Params.clamp]; omega

/-- The implementation's parameters meet the constraints of R12. -/
theorem params_valid : params.Valid := rawParams.clamp_valid

theorem map_mod_eq_self {l : List Nat} {m : Nat} (h : ∀ b ∈ l, b < m) : l.map (· % m) = l := by
  conv_rhs => rw [← List.map_id l]
  exact List.map_congr_left fun b hb => Nat.mod_eq_of_lt (h b hb)

/-- Clamping changes no valid parameters: `params` may be any valid parameters. -/
theorem Params.clamp_eq_self {c : Params} (h : c.Valid) : c.clamp = c := by
  have hb : c.bankBearing.map (· % 360) = c.bankBearing := by
    apply Vector.toList_inj.mp
    rw [Vector.toList_map]
    exact map_mod_eq_self h.bankBearing
  have hd := map_mod_eq_self h.dirTable
  have h1 := h.speedConv
  have h2 := h.fMin
  have h3 := h.dirTol
  have h4 := h.nDir
  have h5 := h.peakSpeedMax
  have h6 := h.peakRainMax
  have h7 := h.periodMs
  have h8 := h.debounceMs
  have h9 := h.rainDelayMs
  have h10 := h.edgeToUm
  have h11 := h.rainPulseHigh
  have h12 := h.rainPulseLow
  simp only [Params.nDir] at h4
  cases c
  simp only [Params.clamp, Params.mk.injEq] at *
  refine ⟨trivial, ?_, ?_, hb, ?_, trivial, ?_, ?_, ?_, ?_, ?_, ?_, ?_, ?_, ?_, trivial⟩
  case refine_4 => rw [if_pos h4, hd]
  all_goals exact clampTo_eq_self (by omega) (by omega)

/-- The constants of the implementation are the ones that its opaque raw constants spell (assumption log 1). -/
theorem params_eq_clamp : params = rawParams.clamp := rfl

end Sys2Proof.Config
end

