-- ==== Sys2Proof/Laws/Decode.lean ====
section
/-! SUPPORT. The fields of a command word, put together and taken apart (R81). -/

namespace Sys2Proof

/-- A command word as a natural: the opcode in bits 31 to 28, the operand in bits 15 to 0. -/
theorem commandFields_toNat (o : BitVec 4) (a : Half) :
    (commandFields o a).toNat = o.toNat * 2 ^ 28 + a.toNat := by
  have h12 : (0 : BitVec 12).toNat = 0 := rfl
  have ho : o.toNat < 2 ^ 4 := o.isLt
  have ha : a.toNat < 2 ^ 16 := a.isLt
  unfold commandFields
  rw [BitVec.toNat_append, BitVec.toNat_append, h12, Nat.or_zero, Nat.shiftLeft_eq, Nat.shiftLeft_eq,
    ← Nat.shiftLeft_eq, ← Nat.shiftLeft_add_eq_or_of_lt ha, Nat.shiftLeft_eq]
  omega

theorem opcField_toNat (w : Word32) : (opcField w).toNat = w.toNat / 2 ^ 28 := by
  have := w.isLt
  simp only [opcField, BitVec.extractLsb'_toNat, Nat.shiftRight_eq_div_pow]
  omega

theorem zeroBits_toNat (w : Word32) : (zeroBits w).toNat = w.toNat / 2 ^ 16 % 2 ^ 12 := by
  simp only [zeroBits, BitVec.extractLsb'_toNat, Nat.shiftRight_eq_div_pow]

theorem argField_toNat (w : Word32) : (argField w).toNat = w.toNat % 2 ^ 16 := by
  simp [argField, BitVec.extractLsb'_toNat]

@[simp] theorem opcField_commandFields (o : BitVec 4) (a : Half) : opcField (commandFields o a) = o := by
  apply BitVec.eq_of_toNat_eq
  rw [opcField_toNat, commandFields_toNat]
  omega

@[simp] theorem zeroBits_commandFields (o : BitVec 4) (a : Half) : zeroBits (commandFields o a) = 0 := by
  apply BitVec.eq_of_toNat_eq
  have ha : a.toNat < 2 ^ 16 := a.isLt
  rw [zeroBits_toNat, commandFields_toNat, show (0 : BitVec 12).toNat = 0 from rfl]
  omega

@[simp] theorem argField_commandFields (o : BitVec 4) (a : Half) : argField (commandFields o a) = a := by
  apply BitVec.eq_of_toNat_eq
  rw [argField_toNat, commandFields_toNat]
  omega

/-- The opcode and the operand are all of a command word whose zero field is zero. -/
theorem commandFields_of_fields {w : Word32} (h : zeroBits w = 0) :
    commandFields (opcField w) (argField w) = w := by
  have hz : _ = 0 := congrArg BitVec.toNat h
  rw [zeroBits_toNat] at hz
  apply BitVec.eq_of_toNat_eq
  rw [commandFields_toNat, opcField_toNat, argField_toNat]
  omega

theorem operandless_eq_ok {a : Half} {i j : Instr} (h : operandless a i = .ok j) : a = 0 ∧ j = i := by
  unfold operandless at h
  split at h
  · exact ⟨‹_›, (Except.ok.inj h).symm⟩
  · cases h

/-- A word that decodes has a zero `ZERO` field. -/
theorem zeroBits_of_decode {w : Word32} {i : Instr} (h : decodeCommand w = .ok i) : zeroBits w = 0 := by
  unfold decodeCommand at h
  split at h
  · cases h
  · exact not_not.mp ‹_›

end Sys2Proof
end

