-- ==== Sys2Proof/Laws/State.lean ====
section
/-! SUPPORT. One lemma per field per named update of State, true by unfolding the update, so that no later proof unfolds
it. -/

namespace Sys2Proof.Machine

variable (s : State) (r : Request) (w : Word32) (st : Status) (l : Label) (arg : Half)

@[simp] theorem request_cfg : (s.request r).cfg = s.cfg := rfl
@[simp] theorem request_regs : (s.request r).regs = s.regs := rfl
@[simp] theorem request_fg : (s.request r).fg = s.fg := rfl
@[simp] theorem request_sync : (s.request r).sync = s.sync := rfl
@[simp] theorem request_port : (s.request r).port = s.port := rfl
@[simp] theorem request_agenda : (s.request r).agenda = s.agenda := rfl
@[simp] theorem request_hist : (s.request r).hist = s.hist ++ [.req r s.nextAnswer] := rfl
@[simp] theorem request_answers : (s.request r).answers = s.answers.tail := rfl
@[simp] theorem request_draws : (s.request r).draws = s.draws + 1 := rfl

@[simp] theorem answer_cfg : (s.answer w st).cfg = s.cfg := rfl
@[simp] theorem answer_regs : (s.answer w st).regs = s.regs := rfl
@[simp] theorem answer_sync : (s.answer w st).sync = s.sync := rfl
@[simp] theorem answer_agenda : (s.answer w st).agenda = s.agenda := rfl
@[simp] theorem answer_answers : (s.answer w st).answers = s.answers := rfl
@[simp] theorem answer_draws : (s.answer w st).draws = s.draws := rfl
@[simp] theorem answer_hist : (s.answer w st).hist = s.hist ++ [.rsp w st.byte] := rfl
@[simp] theorem answer_pc : (s.answer w st).fg.pc = .idle := rfl

@[simp] theorem respond_cfg : (s.respond st).cfg = s.cfg := rfl
@[simp] theorem respond_regs : (s.respond st).regs = s.regs := rfl
@[simp] theorem respond_sync : (s.respond st).sync = s.sync := rfl
@[simp] theorem respond_agenda : (s.respond st).agenda = s.agenda := rfl
@[simp] theorem respond_answers : (s.respond st).answers = s.answers := rfl
@[simp] theorem respond_draws : (s.respond st).draws = s.draws := rfl
@[simp] theorem respond_hist : (s.respond st).hist = s.hist ++ [.rsp s.fg.cmd st.byte] := rfl
@[simp] theorem respond_pc : (s.respond st).fg.pc = .idle := rfl

@[simp] theorem goto_cfg : (s.goto l).cfg = s.cfg := rfl
@[simp] theorem goto_regs : (s.goto l).regs = s.regs := rfl
@[simp] theorem goto_sync : (s.goto l).sync = s.sync := rfl
@[simp] theorem goto_port : (s.goto l).port = s.port := rfl
@[simp] theorem goto_agenda : (s.goto l).agenda = s.agenda := rfl
@[simp] theorem goto_answers : (s.goto l).answers = s.answers := rfl
@[simp] theorem goto_draws : (s.goto l).draws = s.draws := rfl
@[simp] theorem goto_hist : (s.goto l).hist = s.hist := rfl
@[simp] theorem goto_pc : (s.goto l).fg.pc = l := rfl
@[simp] theorem goto_ret : (s.goto l).fg.ret = s.fg.ret := rfl
@[simp] theorem goto_arg : (s.goto l).fg.arg = s.fg.arg := rfl
@[simp] theorem goto_i : (s.goto l).fg.i = s.fg.i := rfl
@[simp] theorem goto_cmd : (s.goto l).fg.cmd = s.fg.cmd := rfl

@[simp] theorem call_cfg : (s.call l arg).cfg = s.cfg := rfl
@[simp] theorem call_regs : (s.call l arg).regs = s.regs := rfl
@[simp] theorem call_sync : (s.call l arg).sync = s.sync := rfl
@[simp] theorem call_port : (s.call l arg).port = s.port := rfl
@[simp] theorem call_agenda : (s.call l arg).agenda = s.agenda := rfl
@[simp] theorem call_answers : (s.call l arg).answers = s.answers := rfl
@[simp] theorem call_draws : (s.call l arg).draws = s.draws := rfl
@[simp] theorem call_hist : (s.call l arg).hist = s.hist := rfl
@[simp] theorem call_pc : (s.call l arg).fg.pc = l := rfl
@[simp] theorem call_ret : (s.call l arg).fg.ret = .proc := rfl
@[simp] theorem call_arg : (s.call l arg).fg.arg = arg := rfl
@[simp] theorem call_i : (s.call l arg).fg.i = s.fg.i := rfl
@[simp] theorem call_cmd : (s.call l arg).fg.cmd = s.fg.cmd := rfl

@[simp] theorem hostRead_regs (a : BitVec 4) : (s.hostRead a).regs = s.regs := rfl
@[simp] theorem hostRead_fg (a : BitVec 4) : (s.hostRead a).fg = s.fg := rfl
@[simp] theorem hostRead_hist (a : BitVec 4) : (s.hostRead a).hist = s.hist := rfl
@[simp] theorem hostRead_readRegister (a b : BitVec 4) : (s.hostRead a).readRegister b = s.readRegister b := rfl

/-- A read shows the addressed register as the state stands (R64, R87). -/
@[simp] theorem hostRead_regRdata (a : BitVec 4) : (s.hostRead a).regRdata = s.readRegister a := rfl

/-- A cycle shows the register that its address selects, as the state stands (R87). -/
theorem clockCycle_regRdata {p : Pins} (h : p.rstN = true) : (s.clockCycle p).regRdata = s.readRegister p.regAddr := by
  simp [State.clockCycle, h, State.regRdata, State.readRegister, State.busy]

/-- A reset cycle shows the register that its address selects, at its reset value (R46, R87, R97). -/
theorem clockCycle_regRdata_reset {p : Pins} (h : p.rstN = false) :
    (s.clockCycle p).regRdata = (State.resetWith s.cfg).readRegister p.regAddr := by
  simp [State.clockCycle, h, State.regRdata, State.readRegister, State.busy]

/-- Without an answer in stock the next one is a free draw. -/
theorem nextAnswer_nil (h : s.answers = []) : s.nextAnswer = Config.driverAnswer s.draws := by
  simp [State.nextAnswer, h]

/-- An answer in stock is the next one. -/
theorem nextAnswer_cons {a : Answer} {as : List Answer} (h : s.answers = a :: as) : s.nextAnswer = a := by
  simp [State.nextAnswer, h]

end Sys2Proof.Machine
end

