-- ==== Sys2Proof/Laws/Ops.lean ====
section
/-! SUPPORT. For each shared operation, once, everything it can do. -/

namespace Sys2Proof.Machine

/-- A command's meaning accepts at `IDLE`, takes a micro-step of the command that FG runs, and leaves FG alone while it
runs another (R40, R86, R239). -/
theorem foreground_cases {i : Instr} {first : Label} {micro : Result} {s t : State}
    (h : foreground i first micro s = .next t) :
    (s.fg.pc = .idle ∧ t = s.accept i first) ∨
      (s.fg.pc ≠ .idle ∧ s.fg.cmd = commandWord i ∧ micro = .next t) ∨
      (s.fg.pc ≠ .idle ∧ s.fg.cmd ≠ commandWord i ∧ t = s) := by
  unfold foreground at h
  split at h
  · exact .inl ⟨‹_›, by cases h; rfl⟩
  · split at h
    · exact .inr (.inl ⟨‹_›, ‹_›, h⟩)
    · exact .inr (.inr ⟨‹_›, ‹_›, by cases h; rfl⟩)

theorem foreground_idle {i : Instr} {first : Label} {micro : Result} {s : State} (h : s.fg.pc = .idle) :
    foreground i first micro s = .next (s.accept i first) := by
  simp [foreground, h]

theorem foreground_running {i : Instr} {first : Label} {micro : Result} {s : State} (h : s.fg.pc ≠ .idle)
    (h' : s.fg.cmd = commandWord i) : foreground i first micro s = micro := by
  simp [foreground, h, h']

theorem foreground_busy {i : Instr} {first : Label} {micro : Result} {s : State} (h : s.fg.pc ≠ .idle)
    (h' : s.fg.cmd ≠ commandWord i) : foreground i first micro s = .next s := by
  simp [foreground, h, h']

/-- Acceptance starts the operation or answers `ERR_STATE` (R86, R180). -/
theorem accept_cases (s : State) (i : Instr) (first : Label) :
    (lifecycleAllows i s.regs.inited = true ∧ s.accept i first =
        { s with fg := { s.fg with
          pc := first, ret := .host, arg := argField (commandWord i), cmd := commandWord i } }) ∨
      (lifecycleAllows i s.regs.inited = false ∧ s.accept i first = s.answer (commandWord i) .errState) := by
  unfold State.accept
  cases h : lifecycleAllows i s.regs.inited <;> simp

/-- A waveform operation's status goes to the host, or to PROC, which goes on after `OK` and ends otherwise
(R40, R166). -/
theorem returnTo_cases (s : State) (cont : Label) (st : Status) :
    (s.fg.ret = .host ∧ s.returnTo cont st = s.respond st) ∨
      (s.fg.ret = .proc ∧ st = .ok ∧
        s.returnTo cont st = { s with fg := { s.fg with ret := .host, pc := cont } }) ∨
      (s.fg.ret = .proc ∧ st ≠ .ok ∧
        s.returnTo cont st = { s with fg := { s.fg with ret := .host } }.respond st) := by
  unfold State.returnTo
  cases s.fg.ret
  · simp
  · by_cases h : st = .ok
    · simp [h, State.goto]
    · simp [h]

@[simp] theorem returnTo_cfg (s : State) (cont : Label) (st : Status) : (s.returnTo cont st).cfg = s.cfg := by
  obtain ⟨-, h⟩ | ⟨-, -, h⟩ | ⟨-, -, h⟩ := returnTo_cases s cont st <;> rw [h] <;> rfl

@[simp] theorem returnTo_regs (s : State) (cont : Label) (st : Status) : (s.returnTo cont st).regs = s.regs := by
  obtain ⟨-, h⟩ | ⟨-, -, h⟩ | ⟨-, -, h⟩ := returnTo_cases s cont st <;> rw [h] <;> rfl

/-- A turn of FG runs the command in `fg_cmd`, or does nothing (R40). -/
theorem foregroundTurn_cases (s : State) :
    (s.fg.pc ≠ .idle ∧ ∃ i, decodeCommand s.fg.cmd = .ok i ∧ s.foregroundTurn = .run i s) ∨
      s.foregroundTurn = .stay s := by
  unfold State.foregroundTurn
  split
  · exact .inr rfl
  · cases h : decodeCommand s.fg.cmd with
    | error e => exact .inr rfl
    | ok i => exact .inl ⟨‹_›, i, rfl, rfl⟩

/-- An offered word is run, or answered `ERR_ILLEGAL` (R83, R86). -/
theorem offered_cases (s : State) (w : Word32) :
    (∃ i, decodeCommand w = .ok i ∧ s.offered w = .run i s) ∨
      (∃ e, decodeCommand w = .error e) ∧ s.offered w = .stay (s.answerIllegal w) := by
  unfold State.offered
  cases h : decodeCommand w with
  | error e => exact .inr ⟨⟨e, rfl⟩, rfl⟩
  | ok i => exact .inl ⟨i, rfl, rfl⟩

/-- A request at a label that issues one is the request that the driver port shows there (R91). -/
theorem heldRequest_isSome (s : State) :
    s.heldRequest.isSome =
      ([Label.in1, .de1, .st1, .st2, .so1, .so2, .sp1, .db, .ds1, .rn3].contains s.fg.pc) := by
  unfold State.heldRequest
  cases s.fg.pc <;> rfl

end Sys2Proof.Machine
end

