-- ==== Sys2Proof/Laws/Exec.lean ====
section
/-! SUPPORT. What a command's meaning can do, once for all commands (R40, R86). -/

namespace Sys2Proof.Machine

/-- The micro-step of the label FG stands at (R40); at `IDLE` there is none, and nothing happens. -/
def microAt (s : State) : Result :=
  match s.fg.pc with
  | .idle => .next s
  | .ev1 => microEV1 s
  | .ev2 => microEV2 s
  | .ev3 => microEV3 s
  | .ev4 => microEV4 s
  | .ev5 => microEV5 s
  | .ev6 => microEV6 s
  | .ev7 => microEV7 s
  | .ev8 => microEV8 s
  | .ev9 => microEV9 s
  | .sp1 => microSP1 s
  | .dr0 => microDR0 s
  | .db => microDB s
  | .ds1 => microDS1 s
  | .rn1 => microRN1 s
  | .rn2 => microRN2 s
  | .rn3 => microRN3 s
  | .rn4 => microRN4 s
  | .rn5 => microRN5 s
  | .rr1 => microRR1 s
  | .in1 => microIN1 s
  | .de1 => microDE1 s
  | .st1 => microST1 s
  | .st2 => microST2 s
  | .so1 => microSO1 s
  | .so2 => microSO2 s
  | .ak1 => microAK1 s

/-- A command is accepted by an idle FG, leaves a busy one alone, or takes the micro-step FG stands at. -/
theorem exec_command_cases {i : Instr} {s t : State} (hc : i.isCommand = true) (h : exec i s = .next t) :
    (s.fg.pc = .idle ∧ t = s.accept i (firstLabel i)) ∨ (s.fg.pc ≠ .idle ∧ t = s) ∨
      (s.fg.pc ≠ .idle ∧ s.fg.cmd = commandWord i ∧ microAt s = .next t) := by
  cases i <;> simp only [Instr.isCommand, Bool.false_eq_true] at hc
  all_goals
    obtain ⟨hp, ht⟩ | ⟨hp, hcmd, hm⟩ | ⟨hp, -, ht⟩ := foreground_cases h
    · exact .inl ⟨hp, ht⟩
    · unfold microAt
      split at hm <;> rename_i hl <;>
        first
        | exact .inr (.inl ⟨hp, (Host.Outcome.next.inj hm).symm⟩)
        | exact .inr (.inr ⟨hp, hcmd, by rw [hl]; exact hm⟩)
    · exact .inr (.inl ⟨hp, ht⟩)

/-- Where a command can stand, its meaning is the micro-step FG stands at. -/
theorem exec_running {i : Instr} {s : State} (hr : runsAt i s.fg.pc s.fg.ret = true)
    (hcmd : s.fg.cmd = commandWord i) : exec i s = microAt s := by
  unfold microAt
  have hp : s.fg.pc ≠ .idle := by
    intro hp
    rw [hp] at hr
    cases i <;> simp [runsAt, Label.inEvaluate, Label.callable, Label.inRain] at hr
  generalize hl : s.fg.pc = l at hr hp
  cases i <;> cases l <;>
    first
    | (exfalso; revert hr; simp [runsAt, Label.inEvaluate, Label.callable, Label.inRain]; done)
    | exact absurd rfl hp
    | (refine (foreground_running (by rw [hl]; exact hp) hcmd).trans ?_; simp only [hl])

end Sys2Proof.Machine
end

