-- ==== Sys2Proof/Laws/PerInstr.lean ====
section
/-! SUPPORT. The family `TableRow`: what an operation is encoded as matches its row of `spec/opcode_table.json`. -/

namespace Sys2Proof.Laws

/-- The row's `match` and `mask` for a command (R81), or the row's bit of the event vector (R84). -/
inductive Row where
  | command (mask pattern : Word32)
  | event (bit : Nat)

/-- The rows of the opcode table. -/
def rowOf : Instr → Row
  | .init => .command 0xFFFFFFFF 0x10000000
  | .deinit => .command 0xFFFFFFFF 0x20000000
  | .start => .command 0xFFFFFFFF 0x30000000
  | .stop => .command 0xFFFFFFFF 0x40000000
  | .proc => .command 0xFFFFFFFF 0x50000000
  | .ack => .command 0xFFFFFFFF 0x60000000
  | .speed _ => .command 0xFFFF0000 0x80000000
  | .dir _ => .command 0xFFFF0000 0x90000000
  | .rain _ => .command 0xFFFF0000 0xA0000000
  | .rainrst => .command 0xFFFFFFFF 0xB0000000
  | .sync => .event 0
  | .tick => .event 1
  | .done => .event 2

/-- What an operation is encoded as matches its row. -/
def TableRow.Statement (i : Instr) : Prop :=
  match rowOf i, encode i with
  | .command mask pattern, .command w => w &&& mask = pattern
  | .event bit, .event v => v.getLsbD bit = true
  | .command _ _, .event _ => False
  | .event _, .command _ => False

/-- The upper half of a command word is its opcode and zeros, whatever the operand. -/
theorem commandFields_and_high (o : BitVec 4) (a : Half) :
    commandFields o a &&& 0xFFFF0000 = commandFields o 0 := by
  apply BitVec.eq_of_getLsbD_eq
  intro i hi
  simp only [commandFields, BitVec.getLsbD_and, BitVec.getLsbD_append]
  interval_cases i <;> simp

theorem TableRow.init : TableRow.Statement .init := rfl
theorem TableRow.deinit : TableRow.Statement .deinit := rfl
theorem TableRow.start : TableRow.Statement .start := rfl
theorem TableRow.stop : TableRow.Statement .stop := rfl
theorem TableRow.proc : TableRow.Statement .proc := rfl
theorem TableRow.ack : TableRow.Statement .ack := rfl
theorem TableRow.speed (kmh : Nat) : TableRow.Statement (.speed kmh) := commandFields_and_high _ _
theorem TableRow.dir (deg : Nat) : TableRow.Statement (.dir deg) := commandFields_and_high _ _
theorem TableRow.rain (mm : Nat) : TableRow.Statement (.rain mm) := commandFields_and_high _ _
theorem TableRow.rainrst : TableRow.Statement .rainrst := rfl
theorem TableRow.sync : TableRow.Statement .sync := rfl
theorem TableRow.tick : TableRow.Statement .tick := rfl
theorem TableRow.done : TableRow.Statement .done := rfl

end Sys2Proof.Laws
end

