-- ==== Sys2Proof/Laws/Step.lean ====
section
/-! SUPPORT. What one step can do. -/

namespace Sys2Proof.Machine

/-- What the agenda lets happen: an event is taken, FG goes on with its command or accepts an offered one, nothing
happens, an illegal word is answered, a register is read, or a clock cycle begins. -/
inductive StepKind (s t : State) : Prop where
  | event (i : Instr) (agenda : List Move) (hi : i = .sync ∨ i = .tick ∨ i = .done)
      (hx : exec i { s with agenda := agenda } = .next t) (hr : s.resetNext = false)
  | running (i : Instr) (agenda : List Move) (hp : s.fg.pc ≠ .idle) (hd : decodeCommand s.fg.cmd = .ok i)
      (hx : exec i { s with agenda := agenda } = .next t) (hr : s.resetNext = false)
  | offered (i : Instr) (w : Word32) (agenda : List Move) (hp : s.fg.pc = .idle) (hd : decodeCommand w = .ok i)
      (hx : exec i { s with agenda := agenda } = .next t) (hr : s.resetNext = false)
  | nothing (agenda : List Move) (ht : t = { s with agenda := agenda }) (hr : s.resetNext = false)
  | illegal (w : Word32) (agenda : List Move) (hp : s.fg.pc = .idle) (hd : ∃ e, decodeCommand w = .error e)
      (ht : t = State.answerIllegal { s with agenda := agenda } w) (hr : s.resetNext = false)
  | read (addr : BitVec 4) (agenda : List Move) (ht : t = State.hostRead { s with agenda := agenda } addr)
      (hr : s.resetNext = false)
  | cycle (p : Pins) (agenda : List Move) (ht : t = State.clockCycle { s with agenda := agenda } p)
      (hr : s.resetNext = !p.rstN)

theorem decodeEvent_cases {v : EventVector} {i : Instr} (h : decodeEvent v = .ok i) :
    i = .sync ∨ i = .tick ∨ i = .done := by
  unfold decodeEvent at h
  repeat' split at h
  all_goals cases h <;> simp

/-- A turn of FG goes on with the command it runs, or does nothing. -/
theorem foregroundTurn_kind {s t : State} {agenda : List Move} (hr : s.resetNext = false)
    (h : (match State.foregroundTurn { s with agenda := agenda } with
      | .run i u => exec i u
      | .stay u => Host.Outcome.next u) = .next t) : StepKind s t := by
  obtain ⟨hp, i, hd, he⟩ | he := foregroundTurn_cases { s with agenda := agenda } <;> rw [he] at h
  · exact .running i agenda hp hd h hr
  · exact .nothing agenda (Host.Outcome.next.inj h).symm hr

/-- Every step that gives a next state is of one of these kinds. -/
theorem step_kind {s t : State} (h : step s = .next t) : StepKind s t := by
  unfold step State.nextTask at h
  cases ha : s.agenda with
  | nil =>
    rw [ha] at h
    have hs : s = { s with agenda := [] } := by rw [← ha]
    rw [hs] at h
    exact foregroundTurn_kind (by simp [State.resetNext, ha]) h
  | cons m rest =>
    rw [ha] at h
    cases m with
    | fg => exact foregroundTurn_kind (by simp [State.resetNext, ha]) h
    | offer w =>
      have hr : s.resetNext = false := by simp [State.resetNext, ha]
      by_cases hp : s.fg.pc = .idle
      · simp only [hp, if_true] at h
        obtain ⟨i, hd, he⟩ | ⟨hd, he⟩ := offered_cases { s with agenda := rest } w <;> rw [he] at h
        · exact .offered i w rest hp hd h hr
        · exact .illegal w rest hp hd (Host.Outcome.next.inj h).symm hr
      · simp only [hp, if_false] at h
        have hs : s = { s with agenda := s.agenda } := rfl
        rw [hs] at h
        exact foregroundTurn_kind hr h
    | events v =>
      have hr : s.resetNext = false := by simp [State.resetNext, ha]
      simp only at h
      cases hd : decodeEvent v <;> simp only [hd] at h
      · exact .nothing rest (Host.Outcome.next.inj h).symm hr
      · exact .event _ _ (decodeEvent_cases hd) h hr
    | read addr => exact .read addr rest (Host.Outcome.next.inj h).symm (by simp [State.resetNext, ha])
    | cycle p => exact .cycle p rest (Host.Outcome.next.inj h).symm (by simp [State.resetNext, ha])

end Sys2Proof.Machine
end

