-- ==== Sys2Proof/Tests/Slice0.lean ====
section
/-! SUPPORT. Tests of the model on values that `95_test_vectors.md` writes out, and for every statement with hypotheses
a concrete state and operands that meet them. -/

namespace Sys2Proof.Tests

open Sys2Proof.Machine Sys2Proof.Config

/-! ### Helpers -/

/-- The example configuration `CFG_EX` (`95_test_vectors.md` section 1). -/
def cfgEx : Params where
  variant := .bank
  speedConv := 417
  fMin := 1
  bankBearing := #v[0, 45, 90, 135, 180, 225, 270, 315]
  dirTol := 30
  bankActiveLevel := true
  dirTable := [0, 45, 90, 135, 180, 225, 270, 315]
  peakSpeedMax := 5
  peakRainMax := 3
  periodMs := 1000
  debounceMs := 5000
  rainDelayMs := 3000
  edgeToUm := 279
  rainPulseHigh := 50
  rainPulseLow := 50
  syncEdgePol := .rising

/-- `CFG_EX` satisfies every constraint of R12 (R13). -/
theorem cfgEx_valid : cfgEx.Valid := by constructor <;> decide

/-- `CFG_EX` under `VARIANT = SHARED`. -/
def cfgShared : Params := { cfgEx with variant := .shared }

/-- The state after `BOOT` (R95): initialised, both sources enabled. -/
def booted (c : Params) : State :=
  { State.resetWith c with regs := { Regs.reset c with inited := true, syncEn := true, tickEn := true } }

/-- FG runs `i` for the host and stands at `l` with operand `arg`; the driver answers 0 to the next request. -/
def standing (i : Instr) (l : Label) (arg : Half) : State :=
  { booted cfgEx with fg := { pc := l, ret := .host, arg := arg, i := 0, cmd := commandWord i }, answers := [0] }

/-- FG runs PROC and stands at `l`, in an operation that PROC called. -/
def called (l : Label) (arg : Half) (i : BitVec 4) : State :=
  { booted cfgEx with fg := { pc := l, ret := .proc, arg := arg, i := i, cmd := commandWord .proc }, answers := [0] }

/-- `s` with other registers. -/
def withRegs (s : State) (f : Regs → Regs) : State := { s with regs := f s.regs }

/-- The driver refuses the next request with code `c`. -/
def refusing (s : State) (c : Answer) : State := { s with answers := [c] }

/-- What `f` reads from the next state, if there is one. -/
def seen {α : Type} (r : Result) (f : State → α) : Option α :=
  match r with
  | .next t => some (f t)
  | .fault _ => none
  | .refused _ => none

/-! ### Well-formedness: each check refuses an ill-formed term -/

theorem test_speed_operand_too_wide : Instr.wellFormed (.speed 65536) = false := by decide
theorem test_dir_operand_too_wide : Instr.wellFormed (.dir 65536) = false := by decide
theorem test_rain_operand_too_wide : Instr.wellFormed (.rain 65536) = false := by decide
theorem test_widest_operand_fits : Instr.wellFormed (.rain 65535) = true := by decide

/-! ### Decoding (V-ENC of `95_test_vectors.md`, words of R81 and vectors of R84) -/

theorem test_decode_init : decodeTableWord 32 0x10000000 = some .init := by decide
theorem test_decode_deinit : decodeTableWord 32 0x20000000 = some .deinit := by decide
theorem test_decode_start : decodeTableWord 32 0x30000000 = some .start := by decide
theorem test_decode_stop : decodeTableWord 32 0x40000000 = some .stop := by decide
theorem test_decode_proc : decodeTableWord 32 0x50000000 = some .proc := by decide
theorem test_decode_ack : decodeTableWord 32 0x60000000 = some .ack := by decide
theorem test_decode_speed : decodeTableWord 32 0x8000000C = some (.speed 12) := by decide
theorem test_decode_dir : decodeTableWord 32 0x9000010E = some (.dir 270) := by decide
theorem test_decode_rain : decodeTableWord 32 0xA0000001 = some (.rain 1) := by decide
theorem test_decode_rainrst : decodeTableWord 32 0xB0000000 = some .rainrst := by decide
theorem test_decode_sync : decodeTableWord 3 0b001 = some .sync := by decide
theorem test_decode_tick : decodeTableWord 3 0b010 = some .tick := by decide
theorem test_decode_done : decodeTableWord 3 0b100 = some .done := by decide

/-- The illegal words of V-ENC. -/
theorem test_illegal_words :
    (decodeCommand 0x00000000 = .error .reservedOpcode ∧ decodeCommand 0x70000000 = .error .reservedOpcode ∧
      decodeCommand 0xC0000000 = .error .reservedOpcode ∧ decodeCommand 0xF0000000 = .error .reservedOpcode) ∧
    (decodeCommand 0x10000001 = .error .argOfOperandless ∧ decodeCommand 0x50000001 = .error .argOfOperandless ∧
      decodeCommand 0xB000FFFF = .error .argOfOperandless) ∧
    (decodeCommand 0x80010005 = .error .zeroField ∧ decodeCommand 0x9FFF0000 = .error .zeroField) := by decide

/-! ### One step of each instruction -/

/-- P6, line 8. -/
theorem test_init : seen (exec .init (withRegs (standing .init .in1 0) fun r => { r with inited := false }))
    (fun t => (t.regs.inited, t.regs.syncEn, t.hist)) =
    some (true, false, [.req ⟨.acquire, 0, 0, 0⟩ 0, .rsp 0x10000000 0x00]) := by decide

/-- P6, line 7. -/
theorem test_init_refused : seen (exec .init (refusing (withRegs (standing .init .in1 0)
    fun r => { r with inited := false }) 7)) (fun t => (t.regs.inited, t.hist.getLast?)) =
    some (false, some (.rsp 0x10000000 0x87)) := by decide

/-- P6, line 14. -/
theorem test_deinit : seen (exec .deinit (standing .deinit .de1 0)) (fun t => (t.readRegister 0, t.hist)) =
    some (0x008, [.req ⟨.release, 0, 0, 0⟩ 0, .rsp 0x20000000 0x00]) := by decide

/-- P6, line 11: the second request of START is refused with 3. -/
theorem test_start : seen (exec .start (refusing (withRegs (standing .start .st2 0)
    fun r => { r with tickEn := false }) 3)) (fun t => (t.readRegister 0, t.hist)) =
    some (0x00B, [.req ⟨.tickStart, 0, 1000, 0⟩ 3, .rsp 0x30000000 0x83]) := by decide

/-- P6, line 13, second request. -/
theorem test_stop : seen (exec .stop (withRegs (standing .stop .so2 0) fun r => { r with syncEn := false }))
    (fun t => (t.readRegister 0, t.hist)) =
    some (0x009, [.req ⟨.tickStop, 0, 0, 0⟩ 0, .rsp 0x40000000 0x00]) := by decide

/-- P12. -/
theorem test_ack : seen (exec .ack (withRegs (standing .ack .ak1 0)
    fun r => { r with armed := false, firstSyncSeen := true, newScenario := true }))
    (fun t => (t.readRegister 0, t.hist)) = some (0x027, [.rsp 0x60000000 0x00]) := by decide

/-- V-SPEED: `SPEED 65535`. -/
theorem test_speed : seen (exec (.speed 65535) (standing (.speed 65535) .sp1 65535))
    (fun t => (t.regs.speedFreq, t.regs.speedDuty)) = some (27328095, 50) := by decide

/-- V-SPEED: `SPEED 0`. -/
theorem test_speed_zero : seen (exec (.speed 0) (standing (.speed 0) .sp1 0))
    (fun t => (t.regs.speedFreq, t.regs.speedDuty, t.hist.head?)) =
    some (1, 0, some (.req ⟨.waveform, 0, 1, 0⟩ 0)) := by decide

/-- V-DIR-BANK: `DIR 331` selects bank 0 through the wrap. -/
theorem test_dir_bank : seen (exec (.dir 331) (standing (.dir 331) .db 331))
    (fun t => (t.regs.outBankSel, t.fg.i, t.hist)) =
    some (0x01, 1, [.req ⟨.bankWrite, 0, 1, 0⟩ 0]) := by decide

/-- R120: after `SPEED 12`, `DIR 270`. -/
theorem test_dir_shared : seen (exec (.dir 270) (withRegs (standing (.dir 270) .ds1 270)
    fun r => { r with speedFreq := 5004, speedDuty := 50 })) (fun t => (t.regs.outDirFreq, t.regs.outDirDuty)) =
    some (5004, 75) := by decide

/-- R122: the last pulse of `RAIN 1`. -/
theorem test_rain : seen (exec (.rain 1) (withRegs (standing (.rain 1) .rn4 1)
    fun r => { r with rainAccUm := 837, rainTargetUm := 1000 })) (fun t => (t.regs.rainAccUm, t.fg.pc)) =
    some (1116, .rn5) := by decide

/-- P3, line 8: the second pulse of `RAIN 1` is refused with 9. -/
theorem test_rain_refused : seen (exec (.rain 1) (refusing (withRegs (standing (.rain 1) .rn3 1)
    fun r => { r with rainAccUm := 279, rainTargetUm := 1000, rainPulseTotal := 23 }) 9))
    (fun t => (t.regs.rainInflight, t.regs.rainPulseTotal, t.hist.getLast?)) =
    some (false, 23, some (.rsp 0xA0000001 0x89)) := by decide

/-- P3, line 4. -/
theorem test_rainrst : seen (exec .rainrst (withRegs (standing .rainrst .rr1 0)
    fun r => { r with rainAccUm := 3069, rainTargetUm := 3000, rainPulseTotal := 11 }))
    (fun t => (t.regs.rainAccUm, t.regs.rainTargetUm, t.regs.rainPulseTotal)) = some (0, 0, 11) := by decide

/-- P5, line 3: EV2 accepts an edge. -/
theorem test_proc_edge : seen (exec .proc (withRegs (standing .proc .ev2 0)
    fun r => { r with pending := true, peakSpeed := 1, peakDirectionIndex := 1, peakRainfall := 3, elapsedMs := 6000 }))
    (fun t => (t.regs.peakSpeed, t.regs.peakDirectionIndex, t.regs.peakRainfall, t.regs.elapsedMs)) =
    some (2, 2, 0, 0) := by decide

/-- R167: with a peak of 3 the ramp turns from 3 to 2. -/
theorem test_proc_ramp : seen (exec .proc (withRegs (standing .proc .ev4 0)
    fun r => { r with periodFlag := true, peakSpeed := 3, currentSpeed := 3 }))
    (fun t => (t.regs.currentSpeed, t.regs.rampDirection, t.regs.periodFlag)) = some (2, .down, false) := by decide

/-- R140: the worked example. -/
theorem test_sync : seen (exec .sync (booted cfgEx)) (fun t => t.readRegister 0) = some 0x037 := by decide

/-- R143: the worked example. -/
theorem test_tick : seen (exec .tick (withRegs (booted cfgEx) fun r => { r with elapsedMs := 2000 }))
    (fun t => (t.regs.elapsedMs, t.regs.periodFlag)) = some (3000, true) := by decide

/-- R22: the clock does not wrap. -/
theorem test_tick_overflow : exec .tick (withRegs (booted cfgEx) fun r => { r with elapsedMs := 4294967000 }) =
    .fault .overflow := rfl

/-- R146: the worked example. -/
theorem test_done : seen (exec .done (withRegs (standing (.rain 1) .rn5 1) fun r => { r with rainInflight := true }))
    (fun t => (t.regs.rainInflight, t.fg.pc)) = some (false, .rn5) := by decide

/-- A word of the opcode table placed right after reset is run by the very next step (R86, R180). -/
theorem test_fetch_word : seen (step ((State.resetWith cfgEx).withFetchWord 32 0x10000000))
    (fun t => (t.fg.pc, t.fg.cmd)) = some (.in1, 0x10000000) := by decide

/-- STATUS after reset (R88). -/
theorem test_status_after_reset : (State.resetWith cfgEx).readRegister 0 = 0x008 := by decide

/-- `reg_rdata` is combinational (R87): with the address held at 0, DONE shows in STATUS at once. -/
theorem test_read_port_follows_the_state :
    let s := (withRegs (booted cfgEx) fun r => { r with rainInflight := true }).hostRead 0
    s.regRdata = 0x20F ∧ seen (exec .done s) State.regRdata = some 0x00F := by decide

/-! ### Witnesses: for each statement with hypotheses, a concrete state and operands that meet them -/

/-- A state of the agenda `ms`. -/
def having (s : State) (ms : List Move) : State := { s with agenda := ms }

/-- The machine goes on for `k` steps. -/
def runs (k : Nat) (s : State) : Bool :=
  match Host.Core.run Sys2Proof.core k s with
  | .next _ => true
  | .fault _ => false
  | .refused _ => false

theorem next_of_runs {s : State} (h : runs 1 s = true) : ∃ t, step s = .next t := by
  have hc : Sys2Proof.core.step s = step s := rfl
  cases hs : step s with
  | next t => exact ⟨t, rfl⟩
  | fault r => simp [runs, Host.Core.run, hc, hs] at h
  | refused r => simp [runs, Host.Core.run, hc, hs] at h

theorem witness_DecodeInvertsEncode : Instr.wellFormed (.dir 0) = true ∧ Instr.wellFormed (.dir 65535) = true := by
  decide

theorem witness_LegalWordsAreEncodings : decodeCommand 0x9000FFFF = .ok (.dir 65535) := by decide

/-- An idle FG with an offer, and a busy one with an empty agenda, a turn of FG, and an offer. -/
theorem witness_StepRunsTheDecodedInstruction :
    (State.reset.fg.pc = .idle ∧ (having State.reset [.offer 0x10000000]).agenda = [.offer 0x10000000] ∧
      decodeCommand 0x10000000 = .ok .init) ∧
    ((standing (.rain 1) .rn5 1).fg.pc ≠ .idle ∧ decodeCommand (standing (.rain 1) .rn5 1).fg.cmd = .ok (.rain 1) ∧
      (standing (.rain 1) .rn5 1).agenda = [] ∧ (having (standing (.rain 1) .rn5 1) [.fg]).agenda = [.fg] ∧
      (having (standing (.rain 1) .rn5 1) [.offer 0x10000000]).agenda = [.offer 0x10000000]) :=
  ⟨⟨rfl, rfl, by decide⟩, by decide⟩

/-- Each clause: no event, SYNC with both others, TICK with DONE, DONE alone. -/
theorem witness_StepTakesEventsInOrder :
    (having (booted cfgEx) [.events 0b000]).agenda = [.events 0b000] ∧ (0b111 : EventVector).getLsbD 0 = true ∧
    ((0b110 : EventVector).getLsbD 0 = false ∧ (0b110 : EventVector).getLsbD 1 = true) ∧
    ((0b100 : EventVector).getLsbD 0 = false ∧ (0b100 : EventVector).getLsbD 1 = false ∧
      (0b100 : EventVector).getLsbD 2 = true) := by decide

/-- A word of each kind: a reserved opcode, a `ZERO` field of 1, an `ARG` of 1 on INIT. -/
theorem witness_IllegalWordIsOnlyAnswered :
    (having (booted cfgEx) [.offer 0x70000000]).agenda = [.offer 0x70000000] ∧
      (having (booted cfgEx) [.offer 0x70000000]).fg.pc = .idle ∧
      IllegalWord 0x70000000 ∧ IllegalWord 0x80010005 ∧ IllegalWord 0x10000001 := by
  refine ⟨rfl, rfl, ?_, ?_, ?_⟩ <;> unfold IllegalWord <;> decide

/-- Before INIT, INIT; after it, a command with the widest operand. -/
theorem witness_AcceptanceStartsTheOperation :
    (Instr.wellFormed .init = true ∧ Instr.isCommand .init = true ∧ (State.resetWith cfgEx).fg.pc = .idle ∧
      (State.resetWith cfgEx).regs.inited = decide (Instr.init ≠ .init)) ∧
    (Instr.wellFormed (.speed 65535) = true ∧ Instr.isCommand (.speed 65535) = true ∧
      (booted cfgEx).fg.pc = .idle ∧ (booted cfgEx).regs.inited = decide (Instr.speed 65535 ≠ .init)) := by decide

/-- A second INIT; a command before INIT. -/
theorem witness_LifecycleRefusalChangesNothing :
    (Instr.isCommand .init = true ∧ (booted cfgEx).fg.pc = .idle ∧
      (booted cfgEx).regs.inited = decide (Instr.init = .init)) ∧
    (Instr.isCommand .proc = true ∧ (State.resetWith cfgEx).fg.pc = .idle ∧
      (State.resetWith cfgEx).regs.inited = decide (Instr.proc = .init)) := by decide

theorem witness_BusyForegroundAcceptsNothing :
    Instr.isCommand (.dir 7) = true ∧ (standing (.dir 8) .dr0 8).fg.pc ≠ .idle ∧
      (standing (.dir 8) .dr0 8).fg.cmd ≠ commandWord (.dir 7) := by decide

theorem witness_InitResetsOnSuccess : (standing .init .in1 0).StandsAt .init .in1 .host := by decide

theorem witness_DeinitClearsTheEnables : (standing .deinit .de1 0).StandsAt .deinit .de1 .host := by decide

theorem witness_StartEnablesBothSources :
    ((standing .start .st1 0).StandsAt .start .st1 .host ∧ (standing .start .st1 0).nextAnswer = 0) ∧
    ((refusing (standing .start .st1 0) 127).StandsAt .start .st1 .host ∧
      (refusing (standing .start .st1 0) 127).nextAnswer ≠ 0) ∧
    (standing .start .st2 0).StandsAt .start .st2 .host := by decide

theorem witness_StopDisablesBothSources :
    ((standing .stop .so1 0).StandsAt .stop .so1 .host ∧ (standing .stop .so1 0).nextAnswer = 0) ∧
    ((refusing (standing .stop .so1 0) 1).StandsAt .stop .so1 .host ∧
      (refusing (standing .stop .so1 0) 1).nextAnswer ≠ 0) ∧
    (standing .stop .so2 0).StandsAt .stop .so2 .host := by decide

theorem witness_AckClearsNewScenario : (standing .ack .ak1 0).StandsAt .ack .ak1 .host := by decide

/-- With the operands 0 and 65535. -/
theorem witness_SpeedRealisesTheWind :
    ((standing (.speed 0) .sp1 0).StandsAt (.speed 0) .sp1 .host ∧ (standing (.speed 0) .sp1 0).fg.arg.toNat = 0 ∧
      (standing (.speed 0) .sp1 0).cfg.Valid ∧ (standing (.speed 0) .sp1 0).nextAnswer = 0) ∧
    ((standing (.speed 65535) .sp1 65535).StandsAt (.speed 65535) .sp1 .host ∧
      (standing (.speed 65535) .sp1 65535).fg.arg.toNat = 65535 ∧
      (refusing (standing (.speed 65535) .sp1 65535) 5).nextAnswer ≠ 0) :=
  ⟨⟨by decide, by decide, cfgEx_valid, by decide⟩, by decide⟩

/-- With the operands 360, and 359 under both variants. -/
theorem witness_DirChecksTheRangeFirst :
    ((standing (.dir 360) .dr0 360).StandsAt (.dir 360) .dr0 .host ∧
      (standing (.dir 360) .dr0 360).fg.arg.toNat = 360) ∧
    ((standing (.dir 359) .dr0 359).StandsAt (.dir 359) .dr0 .host ∧
      (standing (.dir 359) .dr0 359).fg.arg.toNat = 359 ∧ (standing (.dir 359) .dr0 359).cfg.variant = .bank) ∧
    cfgShared.variant = .shared := by decide

/-- Eight accepted answers, at both ends of the range of bearings. -/
theorem witness_DirSelectsTheBanksInTheWindow :
    ∀ d : Half, d = 0 ∨ d = 359 →
      let s := { standing (.dir d.toNat) .dr0 d with answers := [0, 0, 0, 0, 0, 0, 0, 0] }
      s.StandsAt (.dir d.toNat) .dr0 .host ∧ d.toNat < 2 ^ 16 ∧ s.fg.arg.toNat = d.toNat ∧ d.toNat < 360 ∧
        s.cfg.variant = .bank ∧ s.agenda = [] ∧ s.answers = List.replicate 8 (0 : Answer) ++ [] := by
  rintro d (rfl | rfl) <;> decide

/-- Bank 7, accepted and refused. -/
theorem witness_DirWritesOneBankPerTurn :
    let s := { standing (.dir 331) .db 331 with fg := { (standing (.dir 331) .db 331).fg with i := 7 } }
    (s.StandsAt (.dir 331) .db .host ∧ s.fg.arg.toNat = 331 ∧ s.fg.i = BitVec.ofNat 4 (7 : Fin 8)) ∧
      s.nextAnswer = 0 ∧ (refusing s 4).nextAnswer ≠ 0 := by decide

theorem witness_DirProgramsTheSharedDuty :
    (standing (.dir 359) .ds1 359).StandsAt (.dir 359) .ds1 .host ∧
      (standing (.dir 359) .ds1 359).fg.arg.toNat = 359 ∧ (359 : Nat) < 360 ∧
      (standing (.dir 359) .ds1 359).nextAnswer = 0 ∧ (refusing (standing (.dir 359) .ds1 359) 5).nextAnswer ≠ 0 := by
  decide

/-- At both ends of every range. -/
theorem witness_WindowTestsAgree :
    ((0 : Nat) < 360 ∧ 1 ≤ 1 ∧ 1 ≤ 179 ∧ (359 : Nat) < 360) ∧
      ((359 : Nat) < 360 ∧ 1 ≤ 179 ∧ 179 ≤ 179 ∧ (0 : Nat) < 360) := by decide

/-- The largest sums that fit and the smallest that do not; both answers of the driver; RN2 and RN5. -/
theorem witness_RainTakesItsFiveMicroSteps :
    (let s := withRegs (standing (.rain 1) .rn1 1) fun r => { r with rainTargetUm := 4294966295 };
      s.fg.arg.toNat = 1 ∧ s.StandsAt (.rain 1) .rn1 .host ∧ s.regs.rainTargetUm.toNat + 1 * 1000 < 2 ^ 32) ∧
    (let s := withRegs (standing (.rain 1) .rn1 1) fun r => { r with rainTargetUm := 4294966296 };
      s.StandsAt (.rain 1) .rn1 .host ∧ 2 ^ 32 ≤ s.regs.rainTargetUm.toNat + 1 * 1000) ∧
    (standing (.rain 1) .rn2 1).StandsAt (.rain 1) .rn2 .host ∧
    ((standing (.rain 1) .rn3 1).StandsAt (.rain 1) .rn3 .host ∧ (standing (.rain 1) .rn3 1).nextAnswer = 0 ∧
      (refusing (standing (.rain 1) .rn3 1) 9).nextAnswer ≠ 0) ∧
    (let s := withRegs (standing (.rain 1) .rn4 1) fun r => { r with rainAccUm := 4294967016 };
      s.StandsAt (.rain 1) .rn4 .host ∧ s.regs.rainAccUm.toNat + s.cfg.edgeToUm < 2 ^ 32) ∧
    (let s := withRegs (standing (.rain 1) .rn4 1) fun r => { r with rainAccUm := 4294967017 };
      s.StandsAt (.rain 1) .rn4 .host ∧ 2 ^ 32 ≤ s.regs.rainAccUm.toNat + s.cfg.edgeToUm) ∧
    (standing (.rain 1) .rn5 1).StandsAt (.rain 1) .rn5 .host := by decide

/-- `RAIN 1` from zero depths: four pulses (V-RAIN). -/
theorem witness_RainEmitsTheLeastNumberOfPulses :
    let s := { having (booted cfgEx) (.offer (commandWord (.rain 1)) :: .fg :: (pulseTurns 4 ++ [Move.fg])) with
      answers := [0, 0, 0, 0] }
    s.fg.pc = .idle ∧ s.regs.inited = true ∧ s.regs.rainInflight = false ∧ s.cfg.Valid ∧
      1000 = s.regs.rainTargetUm.toNat + 1 * 1000 ∧ 4 = pulseCount s.regs.rainAccUm.toNat 1000 s.cfg.edgeToUm ∧
      s.regs.rainAccUm.toNat + 4 * s.cfg.edgeToUm < 2 ^ 32 ∧ s.answers = List.replicate 4 0 ++ [] ∧
      s.agenda = .offer (commandWord (.rain 1)) :: .fg :: (pulseTurns 4 ++ [Move.fg]) :=
  ⟨rfl, rfl, rfl, cfgEx_valid, rfl, by decide, by decide, rfl, rfl⟩

/-- `RAIN 1` and `RAIN 2` from zero depths: eleven pulses, `ceil (3000 / 279)`, the first four in the first call. -/
theorem witness_RainIsAdditive :
    let s := { having (booted cfgEx) (promptRains 279 0 0 [1, 2]) with answers := List.replicate 11 0 }
    (∀ mm ∈ [1, 2], mm < 2 ^ 16) ∧ s.fg.pc = .idle ∧ s.regs.inited = true ∧ s.regs.rainInflight = false ∧
      s.regs.rainAccUm = 0 ∧ s.regs.rainTargetUm = 0 ∧ s.cfg.Valid ∧
      11 = ceilDiv ([1, 2].sum * 1000) s.cfg.edgeToUm ∧ 11 * s.cfg.edgeToUm < 2 ^ 32 ∧
      s.answers = List.replicate 11 0 ++ [] ∧ s.agenda = promptRains s.cfg.edgeToUm 0 0 [1, 2] :=
  ⟨by decide, rfl, rfl, rfl, rfl, rfl, cfgEx_valid, by decide, by decide, rfl, rfl⟩

theorem witness_RainrstZeroesTheDepths : (standing .rainrst .rr1 0).StandsAt .rainrst .rr1 .host := by decide

theorem witness_EvaluateStopsBeforeTheFirstEdge :
    ((standing .proc .ev1 0).StandsAt .proc .ev1 .host ∧ (standing .proc .ev1 0).regs.firstSyncSeen = false) ∧
    (let s := withRegs (standing .proc .ev1 0) fun r => { r with firstSyncSeen := true };
      s.StandsAt .proc .ev1 .host ∧ s.regs.firstSyncSeen = true) := by decide

theorem witness_EvaluateAcceptsAPendingEdge :
    (let s := withRegs (standing .proc .ev2 0) fun r => { r with pending := true, firstSyncSeen := true };
      s.StandsAt .proc .ev2 .host ∧ s.cfg.Valid ∧ s.regs.pending = true) ∧
    ((standing .proc .ev2 0).StandsAt .proc .ev2 .host ∧ (standing .proc .ev2 0).regs.pending = false) :=
  ⟨⟨by decide, cfgEx_valid, rfl⟩, by decide⟩

theorem witness_EvaluateRearmsAfterTheGuard : (standing .proc .ev3 0).StandsAt .proc .ev3 .host := by decide

theorem witness_EvaluateStepsTheRamp :
    ((standing .proc .ev4 0).StandsAt .proc .ev4 .host ∧ (standing .proc .ev4 0).regs.periodFlag = false) ∧
    (let s := withRegs (standing .proc .ev4 0) fun r => { r with periodFlag := true };
      s.StandsAt .proc .ev4 .host ∧ s.regs.periodFlag = true) := by decide

/-- The index at the last entry of the table. -/
theorem witness_EvaluateCallsTheEngine :
    (standing .proc .ev5 0).StandsAt .proc .ev5 .host ∧
    (let s := withRegs (standing .proc .ev6 0) fun r => { r with peakDirectionIndex := 7 };
      s.StandsAt .proc .ev6 .host ∧ s.regs.peakDirectionIndex.toNat < s.cfg.dirTable.length) ∧
    (standing .proc .ev8 0).StandsAt .proc .ev8 .host := by decide

theorem witness_CalledOperationReturnsToEvaluate :
    ((called .sp1 1 0).StandsAt .proc .sp1 .proc ∧ (called .sp1 1 0).nextAnswer = 0) ∧
    ((called .db 45 7).StandsAt .proc .db .proc ∧ (called .db 45 7).fg.i = 7 ∧ (called .db 45 7).nextAnswer = 0) ∧
    ((called .ds1 45 0).StandsAt .proc .ds1 .proc ∧ (called .ds1 45 0).nextAnswer = 0) ∧
    ((called .rn2 1 0).StandsAt .proc .rn2 .proc ∧
      (called .rn2 1 0).regs.rainTargetUm.toNat ≤ (called .rn2 1 0).regs.rainAccUm.toNat) := by decide

/-- A micro-step that ends its operation, one that does not, and one that faults. -/
theorem witness_CalledOperationWritesTheSame :
    (let s := called .sp1 12 0;
      s.fg.pc.callable = true ∧ runsAt (.speed 12) s.fg.pc .host = true ∧
        (seen (exec (.speed 12) { s with fg := { s.fg with ret := .host, cmd := commandWord (.speed 12) } })
          fun t => t.fg.pc) = some .idle) ∧
    (let s := called .db 45 6;
      s.fg.pc.callable = true ∧ runsAt (.dir 45) s.fg.pc .host = true ∧
        (seen (exec (.dir 45) { s with fg := { s.fg with ret := .host, cmd := commandWord (.dir 45) } })
          fun t => t.fg.pc) = some .db) ∧
    (let s := withRegs (called .rn4 1 0) fun r => { r with rainAccUm := 4294967017 };
      s.fg.pc.callable = true ∧ runsAt (.rain 1) s.fg.pc .host = true ∧
        (seen (exec (.rain 1) { s with fg := { s.fg with ret := .host, cmd := commandWord (.rain 1) } })
          fun t => t.fg.pc) = none) := by decide

theorem witness_FailedCallEndsThePass :
    let s := refusing (called .rn3 1 0) 6
    s.fg.pc ∈ [Label.sp1, .db, .ds1, .rn3] ∧ s.fg.ret = .proc ∧ s.fg.cmd = commandWord .proc ∧ s.nextAnswer ≠ 0 := by
  decide

theorem witness_RainWaitsForTheDelay : (standing .proc .ev7 0).StandsAt .proc .ev7 .host := by decide

theorem witness_EvaluateCountsTheMillimetre : (standing .proc .ev9 0).StandsAt .proc .ev9 .host := by decide

/-- The smallest peak, and the periods at which the ramp is back at 0. -/
theorem witness_RampIsATriangle : (1 ≤ 1 ∧ 1 ≤ 2) ∧ triangle 1 2 = 0 ∧ (rampAfter 1 2).2 = .down := by decide

theorem witness_PeaksCountTheEdges : cfgEx.Valid := cfgEx_valid

theorem witness_ProcIsANoOpBeforeTheFirstEdge :
    let s := having (booted cfgEx) [.events 0b010, .offer (commandWord .proc), .fg]
    s.fg.pc = .idle ∧ s.regs.inited = true ∧ s.regs.firstSyncSeen = false ∧
      (∀ m ∈ s.agenda, m = .events 0b010 ∨ m = .fg ∨ m = .offer (commandWord .proc)) ∧ runs 3 s = true := by decide

theorem witness_RearmRaceLeavesTheGateOpen :
    let s := having (withRegs (standing .proc .ev2 0) fun r => { r with elapsedMs := 6000, firstSyncSeen := true })
      [.fg, .events 0b001, .fg]
    s.StandsAt .proc .ev2 .host ∧ s.regs.pending = false ∧ s.regs.armed = true ∧ s.regs.syncEn = true ∧
      s.cfg.debounceMs < s.regs.elapsedMs.toNat ∧ s.agenda = [.fg, .events 0b001, .fg] := by decide

/-- A SYNC that is not effective falls at EV3. -/
theorem witness_GateStaysClosedInCleanRuns :
    let s := having (withRegs (standing .proc .ev3 0) fun r => { r with armed := false, firstSyncSeen := true })
      [.events 0b001]
    (s.regs.pending = true → s.regs.armed = false) ∧ (s.fg.pc = .ev3 → s.regs.pending = false) ∧
      (s.regs.syncEn = false ∨ s.regs.armed = false) ∧ runs 1 s = true := by decide

theorem witness_SyncActsOnlyWhileArmed :
    ((booted cfgEx).regs.syncEn = true ∧ (booted cfgEx).regs.armed = true) ∧
    ((State.resetWith cfgEx).regs.syncEn = false ∨ (State.resetWith cfgEx).regs.armed = false) := by decide

/-- The largest sum that fits, and the smallest that does not. -/
theorem witness_TickAdvancesTheClock :
    (let s := withRegs (booted cfgEx) fun r => { r with elapsedMs := 4294966295 };
      s.regs.tickEn = true ∧ s.regs.elapsedMs.toNat + s.cfg.periodMs < 2 ^ 32) ∧
    (let s := withRegs (booted cfgEx) fun r => { r with elapsedMs := 4294966296 };
      s.regs.tickEn = true ∧ 2 ^ 32 ≤ s.regs.elapsedMs.toNat + s.cfg.periodMs) ∧
    (State.resetWith cfgEx).regs.tickEn = false := by decide

theorem witness_DoneCompletesThePulse :
    (withRegs (booted cfgEx) fun r => { r with rainInflight := true }).regs.rainInflight = true ∧
      (booted cfgEx).regs.rainInflight = false := by decide

theorem witness_EventsCommute :
    Instr.isCommand .sync = false ∧ Instr.isCommand .tick = false ∧ Instr.sync ≠ .tick ∧
      (seen (exec .sync (booted cfgEx)) fun t => seen (exec .tick t) fun u => u.readRegister 0) =
        some (some 0x077) := by decide

/-- The state after `BOOT` meets the invariants of R229. -/
theorem booted_inv : Inv (booted cfgEx) := ⟨cfgEx_valid, by constructor <;> decide, by constructor <;> decide⟩

/-- FG at RN3 of a host RAIN meets them. -/
theorem rain_inv : Inv (standing (.rain 1) .rn3 1) :=
  ⟨cfgEx_valid, by constructor <;> decide, by constructor <;> decide⟩

/-- FG at EV4 of PROC meets them. -/
theorem proc_inv : Inv (standing .proc .ev4 0) := ⟨cfgEx_valid, by constructor <;> decide, by constructor <;> decide⟩

theorem witness_InvariantHoldsAtReset : cfgEx.Valid := cfgEx_valid

theorem witness_InvariantIsKeptByEveryStep :
    Inv (having (booted cfgEx) [.events 0b001]) ∧ ∃ t, step (having (booted cfgEx) [.events 0b001]) = .next t :=
  ⟨⟨booted_inv.cfg, booted_inv.regs, booted_inv.fg⟩, next_of_runs (by decide)⟩

theorem witness_OutputRegistersReplayTheHistory :
    (standing (.speed 12) .sp1 12).regs.outputs =
        replay (standing (.speed 12) .sp1 12).cfg (standing (.speed 12) .sp1 12).hist ∧
      ∃ t, step (standing (.speed 12) .sp1 12) = .next t := ⟨by decide, next_of_runs (by decide)⟩

theorem witness_HistoryOnlyGrows :
    (∃ t, step (standing .ack .ak1 0) = .next t) ∧ (standing .ack .ak1 0).resetNext = false :=
  ⟨next_of_runs (by decide), rfl⟩

theorem witness_PulseTotalNeverDecreases :
    (∃ t, step (standing (.rain 1) .rn3 1) = .next t) ∧ (standing (.rain 1) .rn3 1).resetNext = false ∧
      (standing (.rain 1) .rn3 1).fg.pc ≠ .in1 := ⟨next_of_runs (by decide), rfl, by decide⟩

theorem witness_PulsesAreSerialised :
    Inv (standing (.rain 1) .rn3 1) ∧
      (seen (step (standing (.rain 1) .rn3 1)) fun t => t.hist) = some ([] ++ [.req ⟨.pulse, 2, 50, 50⟩ 0]) ∧
      [Entry.req ⟨.pulse, 2, 50, 50⟩ 0].countP Entry.isPulse = 1 := ⟨rain_inv, by decide, rfl⟩

/-- A pass of PROC that ends. -/
theorem witness_ProcNeverReportsARangeError :
    Inv (standing .proc .ev4 0) ∧
      (seen (step (standing .proc .ev4 0)) fun t => t.hist) = some ([] ++ [.rsp (commandWord .proc) 0x00]) :=
  ⟨proc_inv, by decide⟩

theorem witness_ForegroundWaitsOnlyForAPulse :
    Inv (booted cfgEx) ∧ (booted cfgEx).agenda = [] ∧ step (booted cfgEx) = .next (booted cfgEx) :=
  ⟨booted_inv, rfl, rfl⟩

theorem witness_RegisterReadShowsTheMap : (having (booted cfgEx) [.read 12]).agenda = [.read 12] := by decide

/-- A synchroniser at the inactive level, under the rising edge. -/
theorem witness_EdgeDetectorRaisesSyncTwoCyclesLater :
    (Synchroniser.reset cfgEx).m = !decide (cfgEx.syncEdgePol = .rising) ∧
      (Synchroniser.reset cfgEx).s = !decide (cfgEx.syncEdgePol = .rising) := by decide

/-- A cycle with nothing at the pins but a command. -/
def commandPins (rstN : Bool) : Pins where
  rstN := rstN
  syncIn := false
  tickIn := false
  pulseDoneIn := false
  cmdValid := true
  cmdWord := 0x50000000
  regAddr := 0
  drvRspValid := false
  drvRspStatus := 0

/-- With and without reset, at an idle FG, at one that waits for the driver, and at one that does not. -/
theorem witness_ClockCycleBringsEventsThenForeground :
    ((having (booted cfgEx) [.cycle (commandPins true)]).agenda = [.cycle (commandPins true)] ∧
      (commandPins true).rstN = true ∧ (commandPins false).rstN = false) ∧
    (booted cfgEx).fg.pc = .idle ∧
    ((standing .proc .ev4 0).fg.pc ≠ .idle ∧ (standing .proc .ev4 0).heldRequest = none) ∧
    (standing .init .in1 0).heldRequest = some ⟨.acquire, 0, 0, 0⟩ := by decide

end Sys2Proof.Tests
end

section
/-! PROOFS. What FG's micro-steps, the events and the clock append to the history (R45), and O49 from it. -/

namespace Sys2Proof.Machine

/-! ### Micro-steps -/

/-- `t` has the parameters of `s`, and the history of `s` with `es` appended and then, if FG's command ends here, the
command's status (R45). -/
inductive State.Appends (s : State) (es : List Entry) (t : State) : Prop where
  | on (hcfg : t.cfg = s.cfg) (hhist : t.hist = s.hist ++ es)
  | ended (st : Status) (hcfg : t.cfg = s.cfg) (hhist : t.hist = s.hist ++ es ++ [.rsp s.fg.cmd st.byte])

/-- What `return st` of a waveform operation appends, when `es` stands in the history already. -/
theorem returnTo_appends {s u : State} {es : List Entry} (hcfg : u.cfg = s.cfg) (hcmd : u.fg.cmd = s.fg.cmd)
    (hhist : u.hist = s.hist ++ es) (cont : Label) (st : Status) : s.Appends es (u.returnTo cont st) := by
  obtain ⟨-, h⟩ | ⟨-, -, h⟩ | ⟨-, -, h⟩ := returnTo_cases u cont st <;> rw [h]
  · exact .ended st hcfg (by simp [hhist, hcmd])
  · exact .on hcfg hhist
  · exact .ended st hcfg (by simp [hhist, hcmd])

/-- At a label that issues a request, the micro-step appends that request with its answer, and at most a status
(R16, R91). -/
theorem microAt_appends_request {s t : State} {r : Request} (hr : s.heldRequest = some r)
    (h : microAt s = .next t) : s.Appends [.req r s.nextAnswer] t := by
  unfold State.heldRequest at hr
  unfold microAt at h
  cases hl : s.fg.pc with (rw [hl] at hr h; cases hr)
  | in1 | de1 | st2 | so2 =>
    simp only [microIN1, microDE1, microST2, microSO2] at h
    split at h <;> cases h
    · exact .ended _ rfl rfl
    · exact .ended _ rfl rfl
  | st1 | so1 =>
    simp only [microST1, microSO1] at h
    split at h <;> cases h
    · exact .ended _ rfl rfl
    · exact .on rfl rfl
  | rn3 =>
    simp only [microRN3] at h
    split at h <;> cases h
    · apply returnTo_appends <;> rfl
    · exact .on rfl rfl
  | sp1 | ds1 =>
    simp only [microSP1, microDS1] at h
    split at h <;> cases h
    · apply returnTo_appends <;> rfl
    · apply returnTo_appends <;> rfl
  | db =>
    simp only [microDB] at h
    split at h
    · cases h
      apply returnTo_appends <;> rfl
    · split at h <;> cases h
      · apply returnTo_appends <;> rfl
      · exact .on rfl rfl

/-- At any other label the micro-step appends at most a status. -/
theorem microAt_appends_silent {s t : State} (hn : s.heldRequest = none) (h : microAt s = .next t) :
    s.Appends [] t := by
  have hs : s.hist = s.hist ++ [] := (List.append_nil _).symm
  unfold State.heldRequest at hn
  unfold microAt at h
  cases hl : s.fg.pc with (rw [hl] at hn h; cases hn)
  | idle | ev2 | ev3 | ev5 | ev6 | ev8 =>
    cases h
    exact .on rfl hs
  | ev9 | rr1 | ak1 =>
    cases h
    exact .ended .ok rfl (by simp)
  | ev1 | ev4 | ev7 =>
    simp only [microEV1, microEV4, microEV7] at h
    split at h <;> cases h
    · exact .on rfl hs
    · exact .ended .ok rfl (by simp)
  | dr0 =>
    simp only [microDR0] at h
    split at h
    · cases h
      exact returnTo_appends rfl rfl hs _ _
    · split at h <;> cases h
      · exact .on rfl hs
      · exact .on rfl hs
  | rn1 | rn4 =>
    simp only [microRN1, microRN4] at h
    split at h <;> cases h
    exact .on rfl hs
  | rn2 =>
    simp only [microRN2] at h
    split at h <;> cases h
    · exact .on rfl hs
    · exact returnTo_appends rfl rfl hs _ _
  | rn5 =>
    simp only [microRN5] at h
    split at h <;> cases h
    · exact .on rfl hs
    · exact .on rfl hs

/-! ### Growth of the history -/

/-- `t` has the parameters of `s`, and a history that begins with that of `s` (R11, R45). -/
structure State.Grows (s t : State) : Prop where
  cfg : t.cfg = s.cfg
  hist : ∃ es, t.hist = s.hist ++ es

theorem State.Grows.of_hist_eq {s t : State} (hcfg : t.cfg = s.cfg) (hhist : t.hist = s.hist) : s.Grows t :=
  ⟨hcfg, [], by rw [hhist, List.append_nil]⟩

theorem answer_grows (s : State) (w : Word32) (st : Status) : s.Grows (s.answer w st) :=
  ⟨rfl, _, answer_hist s w st⟩

theorem State.Appends.grows {s t : State} {es : List Entry} (h : s.Appends es t) : s.Grows t := by
  cases h with
  | on hcfg hhist => exact ⟨hcfg, es, hhist⟩
  | ended st hcfg hhist => exact ⟨hcfg, _, by rw [hhist, List.append_assoc]⟩

theorem microAt_grows {s t : State} (h : microAt s = .next t) : s.Grows t := by
  cases hr : s.heldRequest with
  | none => exact (microAt_appends_silent hr h).grows
  | some r => exact (microAt_appends_request hr h).grows

theorem accept_grows (s : State) (i : Instr) (first : Label) : s.Grows (s.accept i first) := by
  obtain ⟨-, h⟩ | ⟨-, h⟩ := accept_cases s i first <;> rw [h]
  · exact .of_hist_eq rfl rfl
  · exact answer_grows s _ _

/-- A command word spells a command, never an event (R80). -/
theorem isCommand_of_decodeCommand {w : Word32} {i : Instr} (h : decodeCommand w = .ok i) : i.isCommand = true := by
  unfold decodeCommand operandless at h
  repeat' split at h
  all_goals cases h <;> rfl

theorem exec_command_grows {i : Instr} {s t : State} (hc : i.isCommand = true) (h : exec i s = .next t) :
    s.Grows t := by
  obtain ⟨-, ht⟩ | ⟨-, ht⟩ | ⟨-, -, hm⟩ := exec_command_cases hc h
  · exact ht ▸ accept_grows s i _
  · exact ht ▸ .of_hist_eq rfl rfl
  · exact microAt_grows hm

/-- An event writes registers only (R140, R143, R146). -/
theorem exec_event_regs_only {i : Instr} {s t : State} (hi : i = .sync ∨ i = .tick ∨ i = .done)
    (h : exec i s = .next t) : t = { s with regs := t.regs } := by
  obtain rfl | rfl | rfl := hi
  · simp only [exec, execSync] at h
    split at h <;> cases h <;> rfl
  · simp only [exec, execTick] at h
    split at h
    · split at h <;> cases h
      rfl
    · cases h
      rfl
  · simp only [exec, execDone] at h
    split at h <;> cases h <;> rfl

theorem exec_event_grows {i : Instr} {s t : State} (hi : i = .sync ∨ i = .tick ∨ i = .done)
    (h : exec i s = .next t) : s.Grows t := by
  rw [exec_event_regs_only hi h]
  exact .of_hist_eq rfl rfl

@[simp] theorem clockCycle_cfg (s : State) (p : Pins) : (s.clockCycle p).cfg = s.cfg := by
  unfold State.clockCycle
  split <;> rfl

/-- Without reset a clock cycle itself appends nothing; its transitions come after it (R70). -/
theorem clockCycle_hist {s : State} {p : Pins} (h : p.rstN = true) : (s.clockCycle p).hist = s.hist := by
  simp [State.clockCycle, h]

/-- The agenda is no part of the history. -/
theorem State.Grows.of_agenda {s t : State} {agenda : List Move}
    (h : State.Grows { s with agenda := agenda } t) : s.Grows t :=
  ⟨h.cfg, h.hist⟩

/-- Every kind of step extends the history, but for a reset cycle, which keeps the parameters (R11, R45, R97). -/
theorem step_grows_or_resets {s t : State} (h : step s = .next t) :
    s.Grows t ∨ s.resetNext = true ∧ t.cfg = s.cfg := by
  cases step_kind h with
  | event i agenda hi hx => exact .inl (.of_agenda (exec_event_grows hi hx))
  | running i agenda _ hd hx | offered i w agenda _ hd hx =>
    exact .inl (.of_agenda (exec_command_grows (isCommand_of_decodeCommand hd) hx))
  | nothing agenda ht | read addr agenda ht =>
    subst ht
    exact .inl (.of_hist_eq rfl rfl)
  | illegal w agenda _ _ ht =>
    subst ht
    exact .inl (.of_agenda (answer_grows _ w .errIllegal))
  | cycle p agenda ht hr =>
    subst ht
    cases hp : p.rstN with
    | true => exact .inl (.of_hist_eq (clockCycle_cfg _ p) (clockCycle_hist hp))
    | false => exact .inr ⟨by simp [hr, hp], clockCycle_cfg _ p⟩

/-- Settles O49: a step either extends the history or is a reset cycle, and keeps the parameters in both. -/
theorem historyOnlyGrows : Obligations.HistoryOnlyGrows := by
  intro s t h
  obtain ⟨hcfg, hhist⟩ | ⟨hreset, hcfg⟩ := step_grows_or_resets h
  · exact ⟨hcfg, fun _ => hhist⟩
  · exact ⟨hcfg, fun hr => absurd hreset (by simp [hr])⟩

end Sys2Proof.Machine
end

section
/-! PROOFS. What a step does to the output registers and to the history together (R45), with O48, O50 and O51 from it;
which steps stop the machine (O45); what a step runs (O5); the return to PROC (O31); the values after reset (O54). -/

namespace Sys2Proof.Machine

open Sys2Proof.Config

/-! ### What the entries of a history say of the output registers -/

section Entries

variable (c : Params) (o : Outputs)

theorem Outputs.after_rsp (w : Word32) (st : StatusByte) : o.after c (.rsp w st) = o := rfl

theorem Outputs.after_refused (r : Request) {x : Answer} (h : x ≠ 0) : o.after c (.req r x) = o := by
  simp only [Outputs.after, if_pos h]

/-- SPEED's request, accepted, is recorded in the speed shadow (R38). -/
theorem Outputs.after_speed_waveform (freq duty : Nat) :
    o.after c (.req (waveformRequest chanSpeed freq duty) 0) =
      { o with speedFreq := BitVec.ofNat 32 freq, speedDuty := BitVec.ofNat 7 duty } := by
  simp [Outputs.after, waveformRequest, chanSpeed, BitVec.setWidth_ofNat_of_le]

/-- DIR's request on the shared timer, accepted, is recorded in the direction outputs (R39). -/
theorem Outputs.after_direction_waveform (freq duty : Nat) :
    o.after c (.req (waveformRequest chanDirection freq duty) 0) =
      { o with outDirFreq := BitVec.ofNat 32 freq, outDirDuty := BitVec.ofNat 7 duty } := by
  simp [Outputs.after, waveformRequest, chanDirection, BitVec.setWidth_ofNat_of_le]

/-- The level written to a bank is the active one exactly when the bank is selected (R115, R118). -/
theorem bankLevel_eq_active_iff (selected : Bool) :
    ((if bankLevel c selected then 1 else 0 : Word32) = if c.bankActiveLevel then 1 else 0) ↔ selected := by
  unfold bankLevel
  cases selected <;> cases c.bankActiveLevel <;> decide

/-- DIR's request for one bank, accepted, is recorded in that bank's bit (R39). -/
theorem Outputs.after_bankWrite (s : State) :
    o.after s.cfg (.req s.bankRequest 0) =
      { o with
        outBankSel := setBit o.outBankSel s.fg.i.toNat (bankSelected s.cfg s.fg.i.toNat s.operand) } := by
  simp only [Outputs.after, State.bankRequest, bankLevel_eq_active_iff, Bool.decide_eq_true, ne_eq,
    not_true_eq_false, if_false]

/-- An entry takes pulses off the total only when it is an ACQUIRE (R42, R50). -/
theorem Outputs.after_rainPulseTotal_le {r : Request} (h : r.kind ≠ .acquire) (x : Answer) :
    o.rainPulseTotal.toNat ≤ (o.after c (.req r x)).rainPulseTotal.toNat := by
  by_cases hx : x = 0
  · obtain ⟨kind, chan, a, b⟩ := r
    subst hx
    cases kind with
    | acquire => exact absurd rfl h
    | pulse =>
      have hlt := o.rainPulseTotal.isLt
      simp only [Outputs.after, ne_eq, not_true_eq_false, if_false, BitVec.toNat_ofNat]
      omega
    | waveform =>
      simp only [Outputs.after, ne_eq, not_true_eq_false, if_false]
      split <;> exact Nat.le_refl _
    | release | irqArm | irqDisarm | tickStart | tickStop | bankWrite => exact Nat.le_refl _
  · rw [Outputs.after_refused c o r hx]

end Entries

theorem replay_append (c : Params) (h es : List Entry) :
    replay c (h ++ es) = es.foldl (Outputs.after c) (replay c h) :=
  List.foldl_append

/-- No entry of `es` is a request (R45). -/
def Responses (es : List Entry) : Prop := ∀ e ∈ es, ∃ w st, e = .rsp w st

theorem responses_nil : Responses [] := by simp [Responses]

theorem responses_singleton (w : Word32) (st : StatusByte) : Responses [.rsp w st] := by simp [Responses]

/-- Responses say nothing of the output registers. -/
theorem Responses.foldl_after {es : List Entry} (h : Responses es) (c : Params) (o : Outputs) :
    es.foldl (Outputs.after c) o = o := by
  induction es with
  | nil => rfl
  | cons e es ih =>
    obtain ⟨w, st, rfl⟩ := h e List.mem_cons_self
    rw [List.foldl_cons, Outputs.after_rsp]
    exact ih fun e he => h e (List.mem_cons_of_mem _ he)

theorem Responses.countP_isPulse {es : List Entry} (h : Responses es) : es.countP Entry.isPulse = 0 := by
  rw [List.countP_eq_zero]
  intro e he
  obtain ⟨w, st, rfl⟩ := h e he
  simp [Entry.isPulse]

/-! ### What a micro-step does to the output registers -/

theorem Regs.reset_outputs (c : Params) : (Regs.reset c).outputs = Outputs.reset c := rfl

theorem Regs.outputs_rainPulseTotal (r : Regs) : r.outputs.rainPulseTotal = r.rainPulseTotal := rfl

/-- A micro-step that issues a request writes the output registers as the request's entry says (R38, R39, R42). -/
theorem microAt_outputs_request {s t : State} {r : Request} (hr : s.heldRequest = some r)
    (h : microAt s = .next t) : t.regs.outputs = s.regs.outputs.after s.cfg (.req r s.nextAnswer) := by
  unfold State.heldRequest at hr
  unfold microAt at h
  cases hl : s.fg.pc with (rw [hl] at hr h; cases hr)
  | in1 | de1 | st1 | st2 | so1 | so2 | rn3 =>
    simp only [microIN1, microDE1, microST1, microST2, microSO1, microSO2, microRN3] at h
    split at h <;> rename_i ha <;> cases h
    · rw [Outputs.after_refused _ _ _ ha]
      simp [Regs.outputs]
    · rw [not_not.mp ha]
      rfl
  | sp1 =>
    simp only [microSP1] at h
    split at h <;> rename_i ha <;> cases h <;> rw [returnTo_regs]
    · exact (Outputs.after_refused _ _ _ ha).symm
    · rw [not_not.mp ha, State.speedRequest, Outputs.after_speed_waveform]
      rfl
  | ds1 =>
    simp only [microDS1] at h
    split at h <;> rename_i ha <;> cases h <;> rw [returnTo_regs]
    · exact (Outputs.after_refused _ _ _ ha).symm
    · rw [not_not.mp ha, State.directionRequest, Outputs.after_direction_waveform, BitVec.ofNat_toNat,
        BitVec.setWidth_eq]
      rfl
  | db =>
    simp only [microDB] at h
    split at h <;> rename_i ha
    · cases h
      rw [returnTo_regs]
      exact (Outputs.after_refused _ _ _ ha).symm
    · rw [not_not.mp ha, Outputs.after_bankWrite]
      split at h <;> cases h
      · rw [returnTo_regs]
        rfl
      · rfl

/-- A micro-step that issues no request leaves the output registers alone. -/
theorem microAt_outputs_silent {s t : State} (hn : s.heldRequest = none) (h : microAt s = .next t) :
    t.regs.outputs = s.regs.outputs := by
  unfold State.heldRequest at hn
  unfold microAt at h
  cases hl : s.fg.pc with (rw [hl] at hn h; cases hn)
  | idle | ev5 | ev6 | ev8 | ev9 | rr1 | ak1 =>
    cases h
    rfl
  | ev1 | ev4 | ev7 | rn5 =>
    simp only [microEV1, microEV4, microEV7, microRN5] at h
    split at h <;> cases h <;> rfl
  | ev2 | ev3 =>
    cases h
    rw [goto_regs]
    dsimp only
    split <;> rfl
  | rn1 | rn4 =>
    simp only [microRN1, microRN4] at h
    split at h <;> cases h
    rfl
  | rn2 =>
    simp only [microRN2] at h
    split at h <;> cases h
    · rfl
    · rw [returnTo_regs]
  | dr0 =>
    simp only [microDR0] at h
    split at h
    · cases h
      rw [returnTo_regs]
    · split at h <;> cases h <;> rfl

/-! ### What a step does to the history and to the output registers -/

/-- What a transition does to the history and to the output registers at once: one that issues no request appends at
most responses and writes no output register; one that issues FG's request appends it before the responses and writes
what its entry says (R45, R91). -/
inductive State.Records (s t : State) : Prop where
  | silent (es : List Entry) (hes : Responses es) (hcfg : t.cfg = s.cfg) (hhist : t.hist = s.hist ++ es)
      (hout : t.regs.outputs = s.regs.outputs)
  | request (r : Request) (es : List Entry) (hr : s.heldRequest = some r) (hes : Responses es)
      (hcfg : t.cfg = s.cfg) (hhist : t.hist = s.hist ++ .req r s.nextAnswer :: es)
      (hout : t.regs.outputs = s.regs.outputs.after s.cfg (.req r s.nextAnswer))

theorem records_of_unchanged {s t : State} (hcfg : t.cfg = s.cfg) (hhist : t.hist = s.hist)
    (hout : t.regs.outputs = s.regs.outputs) : s.Records t :=
  .silent [] responses_nil hcfg (by rw [hhist, List.append_nil]) hout

theorem answer_records (s : State) (w : Word32) (st : Status) : s.Records (s.answer w st) :=
  .silent _ (responses_singleton w st.byte) rfl (answer_hist s w st) rfl

theorem microAt_records {s t : State} (h : microAt s = .next t) : s.Records t := by
  cases hr : s.heldRequest with
  | none =>
    have hout := microAt_outputs_silent hr h
    cases microAt_appends_silent hr h with
    | on hcfg hhist => exact .silent [] responses_nil hcfg hhist hout
    | ended st hcfg hhist =>
      exact .silent _ (responses_singleton s.fg.cmd st.byte) hcfg (by simpa using hhist) hout
  | some r =>
    have hout := microAt_outputs_request hr h
    cases microAt_appends_request hr h with
    | on hcfg hhist => exact .request r [] hr responses_nil hcfg hhist hout
    | ended st hcfg hhist =>
      exact .request r _ hr (responses_singleton s.fg.cmd st.byte) hcfg (by simpa using hhist) hout

theorem accept_records (s : State) (i : Instr) (first : Label) : s.Records (s.accept i first) := by
  obtain ⟨-, h⟩ | ⟨-, h⟩ := accept_cases s i first <;> rw [h]
  · exact records_of_unchanged rfl rfl rfl
  · exact answer_records s _ _

theorem exec_command_records {i : Instr} {s t : State} (hc : i.isCommand = true) (h : exec i s = .next t) :
    s.Records t := by
  obtain ⟨-, ht⟩ | ⟨-, ht⟩ | ⟨-, -, hm⟩ := exec_command_cases hc h
  · exact ht ▸ accept_records s i _
  · exact ht ▸ records_of_unchanged rfl rfl rfl
  · exact microAt_records hm

/-- No event writes an output register (R140, R143, R146). -/
theorem exec_event_outputs {i : Instr} {s t : State} (hi : i = .sync ∨ i = .tick ∨ i = .done)
    (h : exec i s = .next t) : t.regs.outputs = s.regs.outputs := by
  obtain rfl | rfl | rfl := hi
  · simp only [exec, execSync] at h
    split at h <;> cases h <;> rfl
  · simp only [exec, execTick] at h
    split at h
    · split at h <;> cases h
      rfl
    · cases h
      rfl
  · simp only [exec, execDone] at h
    split at h <;> cases h <;> rfl

theorem exec_event_records {i : Instr} {s t : State} (hi : i = .sync ∨ i = .tick ∨ i = .done)
    (h : exec i s = .next t) : s.Records t := by
  have ht := exec_event_regs_only hi h
  exact records_of_unchanged (by rw [ht]) (by rw [ht]) (exec_event_outputs hi h)

/-- FG's held request and the driver's answer to it do not depend on the coming moves (R10, R91). -/
theorem State.Records.of_agenda {s t : State} {agenda : List Move}
    (h : State.Records { s with agenda := agenda } t) : s.Records t := by
  cases h with
  | silent es hes hcfg hhist hout => exact .silent es hes hcfg hhist hout
  | request r es hr hes hcfg hhist hout => exact .request r es hr hes hcfg hhist hout

/-- With `rst_n` at 1 a clock cycle itself writes no register; its transitions come after it (R70). -/
theorem clockCycle_regs {s : State} {p : Pins} (h : p.rstN = true) : (s.clockCycle p).regs = s.regs := by
  simp [State.clockCycle, h]

/-- With `rst_n` at 0 the history is empty and every register is at its reset value (R46, R97). -/
theorem clockCycle_reset {s : State} {p : Pins} (h : p.rstN = false) :
    (s.clockCycle p).hist = [] ∧ (s.clockCycle p).regs = Regs.reset s.cfg := by
  simp [State.clockCycle, h, State.resetWith]

/-- A step appends at most FG's held request and responses, with the output registers written as they say; or it is
a reset cycle. -/
theorem step_records_or_resets {s t : State} (h : step s = .next t) :
    s.Records t ∨ s.resetNext = true ∧ t.cfg = s.cfg ∧ t.hist = [] ∧ t.regs = Regs.reset s.cfg := by
  cases step_kind h with
  | event i agenda hi hx => exact .inl (.of_agenda (exec_event_records hi hx))
  | running i agenda _ hd hx | offered i w agenda _ hd hx =>
    exact .inl (.of_agenda (exec_command_records (isCommand_of_decodeCommand hd) hx))
  | nothing agenda ht | read addr agenda ht =>
    subst ht
    exact .inl (records_of_unchanged rfl rfl rfl)
  | illegal w agenda _ _ ht =>
    subst ht
    exact .inl (.of_agenda (answer_records _ w .errIllegal))
  | cycle p agenda ht hr =>
    subst ht
    cases hp : p.rstN with
    | true =>
      exact .inl (records_of_unchanged (clockCycle_cfg _ p) (clockCycle_hist hp) (by rw [clockCycle_regs hp]))
    | false =>
      obtain ⟨hhist, hregs⟩ := clockCycle_reset (s := { s with agenda := agenda }) hp
      exact .inr ⟨by simp [hr, hp], clockCycle_cfg _ p, hhist, hregs⟩

/-! ### The output registers and the history -/

/-- Settles O48: the entries a step appends say of the output registers what the step writes to them. -/
theorem outputRegistersReplayTheHistory : Obligations.OutputRegistersReplayTheHistory := by
  intro s t hs h
  obtain hrec | ⟨-, hcfg, hhist, hregs⟩ := step_records_or_resets h
  · cases hrec with
    | silent es hes hcfg hhist hout => rw [hcfg, hhist, replay_append, hes.foldl_after, hout, hs]
    | request r es hr hes hcfg hhist hout =>
      rw [hcfg, hhist, replay_append, List.foldl_cons, hes.foldl_after, hout, hs]
  · rw [hcfg, hhist, hregs, Regs.reset_outputs]
    rfl

/-- FG requests an ACQUIRE at IN1 only (R92, R181). -/
theorem pc_of_heldRequest_acquire {s : State} {r : Request} (hr : s.heldRequest = some r)
    (hk : r.kind = .acquire) : s.fg.pc = .in1 := by
  unfold State.heldRequest at hr
  cases hl : s.fg.pc with (rewrite [hl] at hr; cases hr)
  | in1 => rfl
  | de1 | st1 | st2 | so1 | so2 | sp1 | db | ds1 | rn3 => cases hk

/-- FG requests a PULSE at RN3 only (R92, R122). -/
theorem pc_of_heldRequest_pulse {s : State} {r : Request} (hr : s.heldRequest = some r)
    (hk : r.kind = .pulse) : s.fg.pc = .rn3 := by
  unfold State.heldRequest at hr
  cases hl : s.fg.pc with (rewrite [hl] at hr; cases hr)
  | rn3 => rfl
  | in1 | de1 | st1 | st2 | so1 | so2 | sp1 | db | ds1 => cases hk

/-- Between RN4 and the end of RN5 alone is a pulse in flight, so none is where FG requests one (R229). -/
theorem Inv.not_inflight_at_rn3 {s : State} (hinv : Inv s) (hpc : s.fg.pc = .rn3) : s.regs.rainInflight = false := by
  cases hfl : s.regs.rainInflight with
  | false => rfl
  | true =>
    obtain h | h := hinv.fg.inflight hfl <;> rw [hpc] at h <;> cases h

/-- Settles O50: away from IN1 the request that a step issues is no ACQUIRE, and every other entry keeps or raises the
total. -/
theorem pulseTotalNeverDecreases : Obligations.PulseTotalNeverDecreases := by
  intro s t h hreset hpc
  obtain hrec | ⟨hr, -⟩ := step_records_or_resets h
  · rw [← Regs.outputs_rainPulseTotal, ← Regs.outputs_rainPulseTotal]
    cases hrec with
    | silent es _ _ _ hout => rw [hout]
    | request r es hr _ _ _ hout =>
      rw [hout]
      exact Outputs.after_rainPulseTotal_le _ _ (fun hk => hpc (pc_of_heldRequest_acquire hr hk)) _
  · exact absurd hr (by simp [hreset])

/-- Settles O51: the one request that a step can append is FG's held one, a PULSE at RN3 only, and the invariant has no
pulse in flight there. -/
theorem pulsesAreSerialised : Obligations.PulsesAreSerialised := by
  intro s t es hinv h hes
  obtain hrec | ⟨-, -, hhist, -⟩ := step_records_or_resets h
  · cases hrec with
    | silent es' hes' _ hhist _ =>
      obtain rfl : es = es' := List.append_cancel_left (hes.symm.trans hhist)
      simp [hes'.countP_isPulse]
    | request r es' hr hes' _ hhist _ =>
      obtain rfl : es = .req r s.nextAnswer :: es' := List.append_cancel_left (hes.symm.trans hhist)
      rw [List.countP_cons, hes'.countP_isPulse]
      by_cases hk : r.kind = .pulse
      · have hfree := hinv.not_inflight_at_rn3 (pc_of_heldRequest_pulse hr hk)
        simp [Entry.isPulse, hk, hfree]
      · simp [Entry.isPulse, hk]
  · obtain rfl : es = [] := (List.append_eq_nil_iff.mp (hes.symm.trans hhist)).2
    simp

/-! ### Which steps stop the machine -/

/-- Every command has the shape of R40, with the micro-step FG stands at, or nothing, in it. -/
theorem exec_command_eq_foreground {i : Instr} (hc : i.isCommand = true) (s : State) :
    ∃ micro, exec i s = foreground i (firstLabel i) micro s ∧ (micro = .next s ∨ micro = microAt s) := by
  unfold microAt
  cases i <;> cases hc <;> exact ⟨_, rfl, by cases s.fg.pc <;> simp [noSuchStep]⟩

/-- A command answers a next state, or what the micro-step FG stands at answers. -/
theorem exec_command_next_or_micro {i : Instr} (hc : i.isCommand = true) (s : State) :
    (∃ t, exec i s = .next t) ∨ exec i s = microAt s := by
  obtain ⟨micro, hx, hmicro⟩ := exec_command_eq_foreground hc s
  rw [hx]
  by_cases hp : s.fg.pc = .idle
  · exact .inl ⟨_, foreground_idle hp⟩
  by_cases hcmd : s.fg.cmd = commandWord i
  · rw [foreground_running hp hcmd]
    obtain rfl | rfl := hmicro
    · exact .inl ⟨s, rfl⟩
    · exact .inr rfl
  · exact .inl ⟨s, foreground_busy hp hcmd⟩

/-- A micro-step answers a next state, or it is RN1 or RN4 with a sum that does not fit (R22, R122). -/
theorem microAt_next_or_overflow (s : State) : (∃ t, microAt s = .next t) ∨
    microAt s = .fault .overflow ∧
      ((s.fg.pc = .rn1 ∧ 2 ^ 32 ≤ s.regs.rainTargetUm.toNat + s.fg.arg.toNat * 1000) ∨
        (s.fg.pc = .rn4 ∧ 2 ^ 32 ≤ s.regs.rainAccUm.toNat + s.cfg.edgeToUm)) := by
  unfold microAt
  cases hl : s.fg.pc with
  | rn1 =>
    by_cases ho : overflows (s.regs.rainTargetUm.toNat + micrometres s.operand) = true
    · exact .inr ⟨by simp [microRN1, ho], .inl ⟨rfl, of_decide_eq_true ho⟩⟩
    · exact .inl ⟨_, by simp only [microRN1, ho]; rfl⟩
  | rn4 =>
    by_cases ho : overflows (s.regs.rainAccUm.toNat + s.cfg.edgeToUm) = true
    · exact .inr ⟨by simp [microRN4, ho], .inr ⟨rfl, of_decide_eq_true ho⟩⟩
    · exact .inl ⟨_, by simp only [microRN4, ho]; rfl⟩
  | idle | ev2 | ev3 | ev5 | ev6 | ev8 | ev9 | rr1 | ak1 => exact .inl ⟨_, rfl⟩
  | ev1 | ev4 | ev7 | sp1 | ds1 | rn2 | rn3 | rn5 | in1 | de1 | st1 | st2 | so1 | so2 =>
    simp only [microEV1, microEV4, microEV7, microSP1, microDS1, microRN2, microRN3, microRN5, microIN1, microDE1,
      microST1, microST2, microSO1, microSO2]
    split <;> exact .inl ⟨_, rfl⟩
  | dr0 | db =>
    simp only [microDR0, microDB]
    split
    · exact .inl ⟨_, rfl⟩
    · split <;> exact .inl ⟨_, rfl⟩

/-- An event answers a next state, or it is a TICK whose sum does not fit (R22, R143). -/
theorem exec_event_next_or_overflow {i : Instr} (hi : i.isCommand = false) (s : State) :
    (∃ t, exec i s = .next t) ∨
      exec i s = .fault .overflow ∧ i = .tick ∧ 2 ^ 32 ≤ s.regs.elapsedMs.toNat + s.cfg.periodMs := by
  cases i <;> cases hi
  case sync | done =>
    simp only [exec, execSync, execDone]
    split <;> exact .inl ⟨_, rfl⟩
  case tick =>
    simp only [exec, execTick]
    split
    · split
      · exact .inr ⟨rfl, trivial, of_decide_eq_true ‹_›⟩
      · exact .inl ⟨_, rfl⟩
    · exact .inl ⟨_, rfl⟩

theorem foregroundTurn_run_eq {s u : State} {i : Instr} (h : s.foregroundTurn = .run i u) : u = s := by
  obtain ⟨-, _, -, he⟩ | he := foregroundTurn_cases s <;> rw [he] at h <;> cases h
  rfl

theorem offered_run_eq {s u : State} {w : Word32} {i : Instr} (h : s.offered w = .run i u) : u = s := by
  obtain ⟨_, -, he⟩ | ⟨-, he⟩ := offered_cases s w <;> rw [he] at h <;> cases h
  rfl

/-- The instruction that a step runs is run in the state as it stands, but for the move taken off the agenda. -/
theorem nextTask_run_eq {s u : State} {i : Instr} (h : s.nextTask = .run i u) :
    ∃ agenda, u = { s with agenda := agenda } := by
  unfold State.nextTask at h
  split at h
  · exact ⟨s.agenda, foregroundTurn_run_eq h⟩
  · exact ⟨_, foregroundTurn_run_eq h⟩
  · split at h
    · exact ⟨_, offered_run_eq h⟩
    · exact ⟨s.agenda, foregroundTurn_run_eq h⟩
  · split at h <;> cases h
    exact ⟨_, rfl⟩
  · cases h
  · cases h

/-- Settles O45: an event and a micro-step are the only transitions that can answer no next state. -/
theorem onlyOverflowStopsTheMachine : Obligations.OnlyOverflowStopsTheMachine := by
  intro s
  cases htask : s.nextTask with
  | stay u => exact .inl ⟨u, by rw [step, htask]⟩
  | run i u =>
    have hstep : step s = exec i u := by rw [step, htask]
    obtain ⟨agenda, rfl⟩ := nextTask_run_eq htask
    rw [hstep]
    cases hc : i.isCommand with
    | false =>
      obtain hnext | ⟨hfault, rfl, hsum⟩ := exec_event_next_or_overflow hc { s with agenda := agenda }
      · exact .inl hnext
      · exact .inr ⟨hfault, .inl ⟨_, rfl, hsum⟩⟩
    | true =>
      obtain hnext | hmicro := exec_command_next_or_micro hc { s with agenda := agenda }
      · exact .inl hnext
      · rw [hmicro]
        obtain hnext | ⟨hfault, hsum⟩ := microAt_next_or_overflow { s with agenda := agenda }
        · exact .inl hnext
        · exact .inr ⟨hfault, .inr hsum⟩

/-! ### What a step runs -/

/-- A busy FG's turn runs the command in `fg_cmd` (R40). -/
theorem foregroundTurn_busy {s : State} {i : Instr} (hp : s.fg.pc ≠ .idle) (hd : decodeCommand s.fg.cmd = .ok i) :
    s.foregroundTurn = .run i s := by
  simp [State.foregroundTurn, hp, hd]

/-- A legal word offered is run (R86). -/
theorem offered_legal {w : Word32} {i : Instr} (hd : decodeCommand w = .ok i) (s : State) :
    s.offered w = .run i s := by
  simp [State.offered, hd]

theorem step_of_nextTask_run {s u : State} {i : Instr} (h : s.nextTask = .run i u) : step s = exec i u := by
  rw [step, h]

/-- Settles O5: each clause is one arm of `State.nextTask`. -/
theorem stepRunsTheDecodedInstruction : Obligations.StepRunsTheDecodedInstruction := by
  intro s w rest i
  refine ⟨fun hp ha hd => ?_, fun hp hd => ⟨fun ha => ?_, fun ha => ?_, fun ha => ?_⟩⟩ <;>
    apply step_of_nextTask_run <;> unfold State.nextTask <;> rw [ha]
  · simp only [hp, if_true]
    exact offered_legal hd _
  · exact foregroundTurn_busy hp hd
  · exact foregroundTurn_busy (s := { s with agenda := rest }) hp hd
  · simp only [hp, if_false]
    exact foregroundTurn_busy hp hd

/-! ### The return to PROC -/

/-- An operation that PROC called goes on at PROC's next micro-step after `OK` (R40, R161, R162, R164). -/
theorem returnTo_ok_of_proc {s : State} (h : s.fg.ret = .proc) (cont : Label) :
    s.returnTo cont .ok = { s with fg := { s.fg with ret := .host, pc := cont } } := by
  simp [State.returnTo, h, State.goto]

/-- The same in the terms of the statements, for an operation that ends with its request accepted. -/
theorem request_returnTo_ok_of_proc {s : State} (hret : s.fg.ret = .proc) (ha : s.nextAnswer = 0) (r : Request)
    (regs : Regs) (i : BitVec 4) (cont : Label) :
    State.returnTo { s.request r with regs := regs, fg := { s.fg with i := i } } cont .ok =
      State.advanced { s with regs := regs, fg := { s.fg with ret := .host, i := i } } [.req r 0] cont := by
  rw [returnTo_ok_of_proc (by exact hret)]
  simp [State.advanced, ha]

/-- Where FG stands in an operation that PROC called, PROC's meaning is that operation's micro-step (R40). -/
theorem exec_proc_called {s : State} {l : Label} (hl : l.callable = true) (h : s.StandsAt .proc l .proc) :
    exec .proc s = microAt s := by
  obtain ⟨hpc, hret, hcmd⟩ := h
  exact exec_running (by simp [runsAt, hpc, hret, hl]) hcmd

/-- Settles O31: at each of the four labels the micro-step of an accepted request, or of a reached target, ends in
`State.returnTo` with `OK`. -/
theorem calledOperationReturnsToEvaluate : Obligations.CalledOperationReturnsToEvaluate := by
  intro s
  refine ⟨fun h ha => ?_, fun h hi ha => ?_, fun h ha => ?_, fun h hd => ?_⟩ <;>
    rw [exec_proc_called rfl h] <;> unfold microAt <;> obtain ⟨hpc, hret, -⟩ := h <;> rw [hpc]
  · simp only [microSP1, ha, State.heldRequest, hpc, ne_eq, not_true_eq_false, if_false]
    exact ⟨_, _, rfl, congrArg _ (request_returnTo_ok_of_proc hret ha s.speedRequest _ s.fg.i .ev6)⟩
  · have hlast : (s.request s.bankRequest).fg.i + 1 = 8 := by rw [request_fg, hi]; rfl
    simp only [microDB, ha, hlast, State.heldRequest, hpc, ne_eq, not_true_eq_false, if_false, if_true]
    exact ⟨_, _, rfl, congrArg _ (request_returnTo_ok_of_proc hret ha s.bankRequest _ 8 .ev7)⟩
  · simp only [microDS1, ha, State.heldRequest, hpc, ne_eq, not_true_eq_false, if_false]
    exact ⟨_, _, rfl, congrArg _ (request_returnTo_ok_of_proc hret ha s.directionRequest _ s.fg.i .ev7)⟩
  · simp only [microRN2, Nat.not_lt.mpr hd, if_false, returnTo_ok_of_proc hret]
    simp [State.advanced, State.backInProc]

/-! ### Reset -/

/-- `STATUS` reads 0x00000008 after reset, under all parameters: `armed` alone is 1 (R46, R88). -/
theorem resetWith_status (c : Params) : (State.resetWith c).readRegister 0 = 0x00000008 := by
  change statusWord (Regs.reset c) (State.resetWith c).busy = 8
  simp [statusWord, Regs.reset, State.busy, State.resetWith, Foreground.reset, RampDir.bit]

/-- Settles O54: the values of R46's table stand in the reset state field by field. -/
theorem resetLeavesTheListedValues : Obligations.ResetLeavesTheListedValues := by
  intro c
  refine ⟨rfl, rfl, rfl, resetWith_status c, ?_⟩
  cases h : c.syncEdgePol <;> simp [State.resetWith, Synchroniser.reset, h]

end Sys2Proof.Machine
end

section
/-! PROOFS. That FG alone stands still only at `IDLE` and in RN5's wait (O53), the order of a vector's events (O6), the
register-read map (O55), and what a clock cycle brings (O57). -/

namespace Sys2Proof.Machine

open Sys2Proof.Config

/-! ### Where FG stands still -/

/-- A legal command word is the word of the command it spells (R81, R82). -/
theorem eq_commandWord_of_decodeCommand {w : Word32} {i : Instr} (h : decodeCommand w = .ok i) :
    w = commandWord i := by
  have hw := commandFields_of_fields (zeroBits_of_decode h)
  have hopc (n : Nat) (hn : (opcField w).toNat = n) : opcField w = BitVec.ofNat 4 n := by
    rw [← hn, BitVec.ofNat_toNat, BitVec.setWidth_eq]
  rw [← hw]
  unfold decodeCommand at h
  split at h
  · cases h
  · split at h <;> rename_i hn
    -- SPEED, DIR and RAIN take an operand, the last case is the reserved opcodes, the others have none
    case h_7 | h_8 | h_9 =>
      cases h
      simp [commandWord, hopc _ hn]
    case h_11 => cases h
    all_goals
      obtain ⟨harg, rfl⟩ := operandless_eq_ok h
      simp [commandWord, hopc _ hn, harg]

/-- `return st` of a waveform operation leaves the label: for `IDLE`, or for PROC's next micro-step (R40). -/
theorem returnTo_pc_ne {l cont : Label} (hidle : l ≠ .idle) (hcont : l ≠ cont) (s : State) (st : Status) :
    (s.returnTo cont st).fg.pc ≠ l := by
  obtain ⟨-, h⟩ | ⟨-, -, h⟩ | ⟨-, -, h⟩ := returnTo_cases s cont st <;> rw [h]
  · exact hidle.symm
  · exact hcont.symm
  · exact hidle.symm

/-- A micro-step that issues no request leaves its label, but for RN5's wait (R123, R169). -/
theorem microAt_pc_ne_or_waits {s t : State} (hn : s.heldRequest = none) (hp : s.fg.pc ≠ .idle)
    (h : microAt s = .next t) : t.fg.pc ≠ s.fg.pc ∨ s.fg.pc = .rn5 ∧ s.regs.rainInflight = true := by
  unfold State.heldRequest at hn
  unfold microAt at h
  cases hl : s.fg.pc with (rw [hl] at hn h; cases hn)
  | idle => exact absurd hl hp
  | rn5 =>
    simp only [microRN5] at h
    split at h
    · exact .inr ⟨rfl, ‹_›⟩
    · cases h
      exact .inl nofun
  | ev2 | ev3 | ev5 | ev6 | ev8 | ev9 | rr1 | ak1 =>
    cases h
    exact .inl nofun
  | ev1 | ev4 | ev7 | rn1 | rn4 =>
    simp only [microEV1, microEV4, microEV7, microRN1, microRN4] at h
    split at h <;> cases h <;> exact .inl nofun
  | rn2 =>
    simp only [microRN2] at h
    split at h <;> cases h
    · exact .inl nofun
    · exact .inl (returnTo_pc_ne (l := .rn2) (cont := .ev9) nofun nofun s .ok)
  | dr0 =>
    simp only [microDR0] at h
    split at h
    · cases h
      exact .inl (returnTo_pc_ne (l := .dr0) (cont := .ev7) nofun nofun s .errRange)
    · split at h <;> cases h <;> exact .inl nofun

/-- A micro-step that issues a request changes the state: the request goes to the history (R16, R45). -/
theorem microAt_ne_self_of_heldRequest {s : State} {r : Request} (hr : s.heldRequest = some r) :
    microAt s ≠ .next s := by
  intro h
  cases microAt_appends_request hr h with
  | on _ hhist | ended _ _ hhist => simp at hhist

/-- A busy FG's micro-step changes the state, but for RN5's wait (R123, R169). -/
theorem waits_of_microAt_eq_self {s : State} (hp : s.fg.pc ≠ .idle) (h : microAt s = .next s) :
    s.fg.pc = .rn5 ∧ s.regs.rainInflight = true := by
  cases hr : s.heldRequest with
  | some r => exact absurd h (microAt_ne_self_of_heldRequest hr)
  | none => exact (microAt_pc_ne_or_waits hr hp h).resolve_left (not_not.mpr rfl)

/-- Where the invariants hold, a busy FG's turn is the micro-step it stands at (R40). -/
theorem Inv.exec_eq_microAt {s : State} (hinv : Inv s) (hp : s.fg.pc ≠ .idle) :
    ∃ i, decodeCommand s.fg.cmd = .ok i ∧ exec i s = microAt s := by
  have hcoh := hinv.fg.coherent hp
  unfold Foreground.coherent at hcoh
  split at hcoh
  · exact ⟨_, ‹_›, exec_running hcoh (eq_commandWord_of_decodeCommand ‹_›)⟩
  · cases hcoh

/-- With nothing laid out by the environment a busy FG goes on (R71; assumption log 5). -/
theorem step_of_agenda_nil {s : State} {i : Instr} (ha : s.agenda = []) (hp : s.fg.pc ≠ .idle)
    (hd : decodeCommand s.fg.cmd = .ok i) : step s = exec i s := by
  apply step_of_nextTask_run
  rw [State.nextTask, ha]
  exact foregroundTurn_busy hp hd

/-- Settles O53: FG's turn is the micro-step it stands at, and each of them but RN5's wait moves FG or extends the
history. -/
theorem foregroundWaitsOnlyForAPulse : Obligations.ForegroundWaitsOnlyForAPulse := by
  intro s hinv ha hstep
  by_cases hp : s.fg.pc = .idle
  · exact .inl hp
  · obtain ⟨i, hd, hx⟩ := hinv.exec_eq_microAt hp
    rw [step_of_agenda_nil ha hp hd, hx] at hstep
    exact .inr (waits_of_microAt_eq_self hp hstep)

/-! ### The events of a vector -/

/-- An event vector next on the agenda runs its first event, and the rest of it stays next (R70, R84). -/
theorem step_events {s : State} {v : EventVector} {rest : List Move} {i : Instr} (ha : s.agenda = .events v :: rest)
    (hd : decodeEvent v = .ok i) : step s = exec i { s with agenda := agendaAfter v rest } := by
  apply step_of_nextTask_run
  simp only [State.nextTask, ha, hd]

/-- The events left after SYNC are TICK and DONE, those left after TICK are DONE, and none are left after DONE (R84). -/
theorem eventsLeft_of_first (v : EventVector) :
    (v.getLsbD 0 = true → eventsLeft v = v &&& 0b110) ∧
      (v.getLsbD 0 = false → v.getLsbD 1 = true → eventsLeft v = v &&& 0b100) ∧
      (v.getLsbD 0 = false → v.getLsbD 1 = false → eventsLeft v = 0) := by
  revert v
  decide

/-- Settles O6: the decoder gives the first event of the vector, and the agenda keeps the bits above it. -/
theorem stepTakesEventsInOrder : Obligations.StepTakesEventsInOrder := by
  intro s v rest ha
  obtain ⟨hleft0, hleft1, hleft2⟩ := eventsLeft_of_first v
  refine ⟨fun hv => ?_, fun h0 => ?_, fun h0 h1 => ?_, fun h0 h1 h2 => ?_⟩
  · subst hv
    simp [step, State.nextTask, ha, decodeEvent]
  · have hd : decodeEvent v = .ok .sync := by simp only [decodeEvent, h0, if_true]
    rw [step_events ha hd, agendaAfter, hleft0 h0]
  · have hd : decodeEvent v = .ok .tick := by
      simp only [decodeEvent, h0, h1, Bool.false_eq_true, if_false, if_true]
    rw [step_events ha hd, agendaAfter, hleft1 h0 h1]
  · have hd : decodeEvent v = .ok .done := by
      simp only [decodeEvent, h0, h1, h2, Bool.false_eq_true, if_false, if_true]
    rw [step_events ha hd, agendaAfter, hleft2 h0 h1, if_pos rfl]

/-! ### The register-read map -/

/-- One more flag below a word: the word is doubled, and the flag is bit 0. -/
theorem toNat_append_ofBool {n : Nat} (x : BitVec n) (b : Bool) :
    (x ++ BitVec.ofBool b).toNat = 2 * x.toNat + b.toNat := by
  rw [BitVec.toNat_append, BitVec.toNat_ofBool, ← Nat.shiftLeft_add_eq_or_of_lt (by cases b <;> decide),
    Nat.shiftLeft_eq]
  omega

/-- The value of a flag at bit `n` of a register (R88, R89). -/
def flagAt (n : Nat) (b : Bool) : Nat := if b then 2 ^ n else 0

theorem flagAt_eq (n : Nat) (b : Bool) : flagAt n b = 2 ^ n * b.toNat := by
  cases b <;> simp [flagAt]

theorem RampDir.bit_eq (d : RampDir) : d.bit = decide (d = .down) := by
  cases d <;> rfl

/-- `STATUS` as a natural: the eleven flags at their bits (R88). -/
theorem statusWord_toNat (r : Regs) (busy : Bool) :
    (statusWord r busy).toNat = flagAt 0 r.inited + flagAt 1 r.syncEn + flagAt 2 r.tickEn + flagAt 3 r.armed +
      flagAt 4 r.pending + flagAt 5 r.firstSyncSeen + flagAt 6 r.periodFlag + flagAt 7 r.newScenario +
      flagAt 8 (r.rampDirection = .down) + flagAt 9 r.rainInflight + flagAt 10 busy := by
  have h0 : (0 : BitVec 21).toNat = 0 := rfl
  simp only [statusWord, toNat_append_ofBool, flagAt_eq, RampDir.bit_eq]
  omega

/-- `CONFIG` as a natural: the three choices of the implementation at their bits (R89). -/
theorem configWord_toNat (c : Params) :
    (configWord c).toNat = flagAt 0 (c.variant = .shared) + flagAt 1 c.bankActiveLevel +
      flagAt 2 (c.syncEdgePol = .falling) := by
  have h0 : (0 : BitVec 29).toNat = 0 := rfl
  simp only [configWord, toNat_append_ofBool, flagAt_eq]
  omega

/-- Register 12 as a natural: the banks in its low byte, the direction duty above (R87). -/
theorem outputsWord_toNat (duty : Duty) (banks : BitVec 8) :
    ((0 : BitVec 17) ++ duty ++ banks).toNat = banks.toNat + 2 ^ 8 * duty.toNat := by
  have h0 : (0 : BitVec 17).toNat = 0 := rfl
  rw [BitVec.toNat_append, BitVec.toNat_append, h0, Nat.zero_shiftLeft, Nat.zero_or,
    ← Nat.shiftLeft_add_eq_or_of_lt banks.isLt, Nat.shiftLeft_eq]
  omega

/-- A read next on the agenda puts the address at the read port (R87). -/
theorem step_read {s : State} {a : BitVec 4} {rest : List Move} (ha : s.agenda = .read a :: rest) :
    step s = .next (State.hostRead { s with agenda := rest } a) := by
  simp only [step, State.nextTask, ha]

/-- Settles O55: the words of the map are read as naturals, the packed ones by `statusWord_toNat`,
`outputsWord_toNat` and `configWord_toNat`. -/
theorem registerReadShowsTheMap : Obligations.RegisterReadShowsTheMap := by
  intro s
  have hhalf (x : Half) : (x.setWidth 32).toNat = x.toNat := BitVec.toNat_setWidth_of_le (by decide)
  have hduty (x : Duty) : (x.setWidth 32).toNat = x.toNat := BitVec.toNat_setWidth_of_le (by decide)
  refine ⟨fun a rest ha => ⟨step_read ha, rfl⟩, rfl, statusWord_toNat s.regs s.busy, hhalf _, hhalf _, hhalf _,
    hhalf _, hhalf _, rfl, rfl, rfl, rfl, rfl, hduty _, outputsWord_toNat _ _, rfl, configWord_toNat s.cfg, rfl⟩

/-! ### A clock cycle -/

/-- A cycle next on the agenda changes the pins' own state, and puts its transitions next (R70; assumption log 8). -/
theorem step_cycle {s : State} {p : Pins} {rest : List Move} (ha : s.agenda = .cycle p :: rest) :
    step s = .next (State.clockCycle { s with agenda := rest } p) := by
  simp only [step, State.nextTask, ha]

/-- The vector of a cycle has SYNC at bit 0, TICK at bit 1 and DONE at bit 2 (R84). -/
theorem cycleEvents_getLsbD (c : Params) (y : Synchroniser) (p : Pins) :
    (cycleEvents c y p).getLsbD 0 = y.edge c ∧ (cycleEvents c y p).getLsbD 1 = p.tickIn ∧
      (cycleEvents c y p).getLsbD 2 = p.pulseDoneIn := by
  unfold cycleEvents
  generalize y.edge c = edge, p.tickIn = tick, p.pulseDoneIn = done
  revert edge tick done
  decide

section Cycle

variable {s : State} {p : Pins}

/-- At `IDLE` no request is held (R91). -/
theorem pc_ne_idle_of_heldRequest {r : Request} (hr : s.heldRequest = some r) : s.fg.pc ≠ .idle := by
  intro hp
  simp [State.heldRequest, hp] at hr

/-- An idle FG accepts an offered command (R86). -/
theorem cycleForeground_idle (hp : s.fg.pc = .idle) :
    cycleForeground s p = if p.cmdValid then [.offer p.cmdWord] else [] := by
  rw [cycleForeground, if_pos hp]

/-- At a label without a request FG takes its turn, and no answer is taken from the pins (R91). -/
theorem cycle_without_request (hp : s.fg.pc ≠ .idle) (hr : s.heldRequest = none) :
    cycleForeground s p = [.fg] ∧ cycleAnswers s p = s.answers := by
  simp [cycleForeground, cycleAnswers, hp, hr]

/-- A held request that the driver answers in this cycle lets FG take its turn with that answer (R91). -/
theorem cycle_answered {r : Request} (hr : s.heldRequest = some r) (hv : p.drvRspValid = true) :
    cycleForeground s p = [.fg] ∧ cycleAnswers s p = p.drvRspStatus :: s.answers := by
  simp [cycleForeground, cycleAnswers, pc_ne_idle_of_heldRequest hr, hr, hv]

/-- A held request that the driver does not answer in this cycle keeps FG waiting (R91). -/
theorem cycle_waiting {r : Request} (hr : s.heldRequest = some r) (hv : p.drvRspValid = false) :
    cycleForeground s p = [] ∧ cycleAnswers s p = s.answers := by
  simp [cycleForeground, cycleAnswers, pc_ne_idle_of_heldRequest hr, hr, hv]

/-- With `rst_n` at 0 FG and the synchroniser are at their reset values, and the environment's coming moves stay (R46,
R97; assumption log 10). -/
theorem clockCycle_reset_frame (h : p.rstN = false) :
    (s.clockCycle p).fg = Foreground.reset ∧ (s.clockCycle p).sync = Synchroniser.reset s.cfg ∧
      (s.clockCycle p).agenda = s.agenda := by
  simp [State.clockCycle, h, State.resetWith]

/-- With `rst_n` at 1 the synchroniser shifts, FG stays, the response port is taken down, and the cycle's events and
FG's transition come next (R70, R85, R86). -/
theorem clockCycle_running_frame (h : p.rstN = true) :
    (s.clockCycle p).fg = s.fg ∧ (s.clockCycle p).sync = s.sync.shift p.syncIn ∧
      (s.clockCycle p).port.rspValid = false ∧ (s.clockCycle p).answers = cycleAnswers s p ∧
      (s.clockCycle p).agenda = .events (cycleEvents s.cfg s.sync p) :: (cycleForeground s p ++ s.agenda) := by
  simp [State.clockCycle, h]

end Cycle

/-- Settles O57: a reset cycle by `clockCycle_reset_frame`, a running one by `clockCycle_running_frame`, with FG's
part of it for an idle FG, for one without a request, and for one whose request is answered or not. -/
theorem clockCycleBringsEventsThenForeground : Obligations.ClockCycleBringsEventsThenForeground := by
  intro s p rest ha
  refine ⟨_, step_cycle ha, fun hn => ?_, fun hn => ?_⟩
  · obtain ⟨hhist, hregs⟩ := clockCycle_reset (s := { s with agenda := rest }) hn
    obtain ⟨hfg, hsync, hagenda⟩ := clockCycle_reset_frame (s := { s with agenda := rest }) hn
    have hread := clockCycle_regRdata_reset { s with agenda := rest } hn
    refine ⟨hregs, by rw [hfg]; rfl, hsync, hhist, hagenda, hread, fun h0 => ?_⟩
    rw [hread, h0]
    exact resetWith_status s.cfg
  · obtain ⟨hfg, hsync, hport, hanswers, hagenda⟩ := clockCycle_running_frame (s := { s with agenda := rest }) hn
    obtain ⟨hev0, hev1, hev2⟩ := cycleEvents_getLsbD s.cfg s.sync p
    refine ⟨clockCycle_regs hn, hfg, clockCycle_hist hn, hsync, hport, clockCycle_regRdata _ hn, _, _, hagenda, hev0,
      hev1, hev2, fun hp => cycleForeground_idle hp, fun hp hr => ?_, fun r hr => ?_⟩
    · rw [hanswers]
      exact cycle_without_request hp hr
    · cases hv : p.drvRspValid with
      | true =>
        obtain ⟨hms, has⟩ := cycle_answered (s := { s with agenda := rest }) hr hv
        exact ⟨hms, nextAnswer_cons _ (hanswers.trans has)⟩
      | false =>
        rw [hanswers]
        exact cycle_waiting (s := { s with agenda := rest }) hr hv

end Sys2Proof.Machine
end

section
/-! PROOFS. The encoding, in both directions (O1, O2, O4) and the words it leaves out (O3, O7); the acceptance of a
command (O8, O10); the edge detector (O56). -/

namespace Sys2Proof.Machine

open Sys2Proof.Config

/-! ### From an operation to its word and back -/

/-- An operand that fits its field is read back from it (R82). -/
theorem toNat_ofNat_of_operandFits {n : Nat} (h : operandFits n = true) : (BitVec.ofNat 16 n).toNat = n :=
  Nat.mod_eq_of_lt (of_decide_eq_true h)

/-- What a field holds fits it (R82). -/
theorem operandFits_toNat (a : Half) : operandFits a.toNat = true :=
  decide_eq_true a.isLt

/-- A command is carried by its command word (R80, R81). -/
theorem encode_of_isCommand {i : Instr} (hc : i.isCommand = true) : encode i = .command (commandWord i) := by
  cases i <;> cases hc <;> rfl

/-- The operand field of a command's word holds its operand, 0 when it has none (R81, R82). -/
theorem argField_commandWord {i : Instr} (hc : i.isCommand = true) :
    argField (commandWord i) = BitVec.ofNat 16 (operandOf i) := by
  cases i <;> cases hc <;> exact argField_commandFields _ _

/-- The word of a well-formed command decodes to the command (R81, R82). -/
theorem decodeCommand_commandWord {i : Instr} (hc : i.isCommand = true) (hw : i.wellFormed = true) :
    decodeCommand (commandWord i) = .ok i := by
  cases i with
  | init | deinit | start | stop | proc | ack | rainrst => simp [decodeCommand, commandWord, operandless]
  | speed n | dir n | rain n =>
    have hn : (BitVec.ofNat 16 n).toNat = n := toNat_ofNat_of_operandFits hw
    simp only [decodeCommand, commandWord, zeroBits_commandFields, opcField_commandFields, argField_commandFields, hn]
    rfl
  | sync | tick | done => cases hc

/-- Settles O1: a command by `decodeCommand_commandWord`, an event by its one-bit vector. -/
theorem decodeInvertsEncode : Obligations.DecodeInvertsEncode := by
  intro i hw
  cases hc : i.isCommand with
  | true =>
    rw [encode_of_isCommand hc]
    exact decodeCommand_commandWord hc hw
  | false => cases i <;> cases hc <;> rfl

/-- A legal command word spells a well-formed operation: its operand comes from the 16-bit field (R82). -/
theorem wellFormed_of_decodeCommand {w : Word32} {i : Instr} (h : decodeCommand w = .ok i) : i.wellFormed = true := by
  unfold decodeCommand at h
  split at h
  · cases h
  · split at h
    case h_7 | h_8 | h_9 =>
      cases h
      exact operandFits_toNat _
    case h_11 => cases h
    all_goals
      obtain ⟨-, rfl⟩ := operandless_eq_ok h
      rfl

/-- Settles O2: a legal word is the command word of what it spells, which is how a command is carried. -/
theorem legalWordsAreEncodings : Obligations.LegalWordsAreEncodings := by
  intro w i h
  refine ⟨wellFormed_of_decodeCommand h, ?_⟩
  rw [encode_of_isCommand (isCommand_of_decodeCommand h), ← eq_commandWord_of_decodeCommand h]

/-- Settles O4: thirteen closed facts, with every word written out and none taken from the encoder. -/
theorem writtenOutWordsDecode : Obligations.WrittenOutWordsDecode := by
  unfold Obligations.WrittenOutWordsDecode
  decide

/-! ### Illegal words -/

/-- An operation without an operand is rejected when its operand field is not 0 (R83). -/
theorem operandless_error_iff {a : Half} {i : Instr} : (∃ e, operandless a i = .error e) ↔ a.toNat ≠ 0 := by
  have ha : a.toNat = 0 ↔ a = 0 := (BitVec.toNat_eq (y := 0)).symm
  unfold operandless
  split
  · exact iff_of_false (by rintro ⟨_, ⟨⟩⟩) (not_not.mpr (ha.mpr ‹_›))
  · exact iff_of_true ⟨_, rfl⟩ (mt ha.mp ‹_›)

/-- Settles O3: with a zero `ZERO` field the opcode decides, the reserved ones being all that no arm of the decoder
names. -/
theorem illegalWordsAreTheReserved : Obligations.IllegalWordsAreTheReserved := by
  intro w
  unfold IllegalWord
  rw [← opcField_toNat, ← zeroBits_toNat, ← argField_toNat]
  by_cases hz : zeroBits w = 0
  · simp only [decodeCommand, hz, ne_eq, not_true_eq_false, if_false]
    split
    case h_7 | h_8 | h_9 => simp [*]
    case h_11 =>
      have := (opcField w).isLt
      refine iff_of_true ⟨_, rfl⟩ (.inl ?_)
      -- `omega` reads a negation, not an implication to `False`
      simp only [imp_false] at *
      omega
    all_goals simp [operandless_error_iff, *]
  · have hz' : (zeroBits w).toNat ≠ 0 := fun h => hz (BitVec.eq_of_toNat_eq h)
    exact iff_of_true ⟨_, if_pos hz⟩ (.inr (.inl hz'))

theorem step_of_nextTask_stay {s t : State} (h : s.nextTask = .stay t) : step s = .next t := by
  rw [step, h]

/-- An illegal word offered is answered `ERR_ILLEGAL` (R83). -/
theorem offered_illegal {w : Word32} {e : DecodeError} (hd : decodeCommand w = .error e) (s : State) :
    s.offered w = .stay (s.answerIllegal w) := by
  simp [State.offered, hd]

/-- An answer to a word that FG has not taken leaves FG as it is (R83, R86). -/
theorem answer_of_idle {s : State} (hp : s.fg.pc = .idle) (w : Word32) (st : Status) :
    s.answer w st = { s with
      hist := s.hist ++ [.rsp w st.byte]
      port := { s.port with rspValid := true, rspStatus := st.byte } } := by
  simp [State.answer, ← hp]

/-- Settles O7: the decoder rejects the word, and the answer changes the history and the response port only. -/
theorem illegalWordIsOnlyAnswered : Obligations.IllegalWordIsOnlyAnswered := by
  intro s w rest ha hp hill
  obtain ⟨e, hd⟩ := (illegalWordsAreTheReserved w).mpr hill
  have htask : s.nextTask = .stay (State.answerIllegal { s with agenda := rest } w) := by
    simp only [State.nextTask, ha, hp, if_true]
    exact offered_illegal hd _
  rw [step_of_nextTask_stay htask]
  exact congrArg _ (answer_of_idle (s := { s with agenda := rest }) hp w .errIllegal)

/-! ### Acceptance -/

/-- An idle FG accepts a command or refuses it (R86). -/
theorem exec_command_idle {i : Instr} (hc : i.isCommand = true) {s : State} (hp : s.fg.pc = .idle) :
    exec i s = .next (s.accept i (firstLabel i)) := by
  obtain ⟨micro, hx, -⟩ := exec_command_eq_foreground hc s
  rw [hx, foreground_idle hp]

/-- INIT may run when `inited` is 0, every other command when it is 1 (R180). -/
theorem lifecycleAllows_iff {i : Instr} {inited : Bool} :
    lifecycleAllows i inited = true ↔ inited = decide (i ≠ .init) := by
  unfold lifecycleAllows
  split <;> simp [*]

/-- Settles O8: the allowed case of `accept_cases`, with the operand that the command's word carries. -/
theorem acceptanceStartsTheOperation : Obligations.AcceptanceStartsTheOperation := by
  intro i s _ hc hp hinited
  have hallows := lifecycleAllows_iff.mpr hinited
  obtain ⟨-, haccept⟩ | ⟨hrefused, -⟩ := accept_cases s i (firstLabel i)
  · rw [exec_command_idle hc hp, haccept, argField_commandWord hc]
  · rw [hallows] at hrefused
    cases hrefused

/-- Settles O10: the waiting case of the one shape that every command has. -/
theorem busyForegroundAcceptsNothing : Obligations.BusyForegroundAcceptsNothing := by
  intro i s hc hp hcmd
  obtain ⟨micro, hx, -⟩ := exec_command_eq_foreground hc s
  rw [hx, foreground_busy hp hcmd]

/-! ### The edge detector -/

/-- SYNC is raised when `sync_s` is at the active level and `sync_prev` is not, under both polarities (R43, R85). -/
theorem Synchroniser.edge_iff (c : Params) (y : Synchroniser) :
    y.edge c = true ↔
      y.s = decide (c.syncEdgePol = .rising) ∧ y.prev = !decide (c.syncEdgePol = .rising) := by
  unfold Synchroniser.edge
  cases c.syncEdgePol <;> simp

/-- Settles O56: the active level is in `sync_s` alone after the second shift; before it `sync_s` is inactive, and
after the third `sync_prev` is active. -/
theorem edgeDetectorRaisesSyncTwoCyclesLater : Obligations.EdgeDetectorRaisesSyncTwoCyclesLater := by
  intro c y p q active hm hs
  refine ⟨?_, ?_, ?_⟩
  · rw [← Bool.not_eq_true, Synchroniser.edge_iff]
    rintro ⟨h, -⟩
    exact Bool.not_ne_self _ (hm.symm.trans h)
  · exact (Synchroniser.edge_iff _ _).mpr ⟨rfl, hm⟩
  · rw [← Bool.not_eq_true, Synchroniser.edge_iff]
    rintro ⟨-, h⟩
    exact Bool.self_ne_not _ h

end Sys2Proof.Machine
end

section
/-! PROOFS. The waveform engine but for RAIN: how its micro-steps end and what a refused request does (O33), SPEED and
RAINRST (O16, O25), DIR (O17 to O21), and that each micro-step is the same under the host's link and PROC's (O32). -/

namespace Sys2Proof.Machine

open Sys2Proof.Config

/-! ### How a micro-step ends -/

/-- Where a command can stand, its meaning is the micro-step of that label (R40). -/
theorem exec_standing {s : State} {i : Instr} {l : Label} {ret : Link} (h : s.StandsAt i l ret)
    (hr : runsAt i l ret = true) : exec i s = microAt s := by
  obtain ⟨rfl, rfl, hcmd⟩ := h
  exact exec_running hr hcmd

theorem respond_eq_ended (s : State) (st : Status) : s.respond st = s.ended [] st.byte := by
  simp [State.respond, State.answer, State.ended]

theorem goto_eq_advanced (s : State) (l : Label) : s.goto l = s.advanced [] l := by
  simp [State.goto, State.advanced]

theorem request_goto (s : State) (r : Request) (regs : Regs) (l : Label) :
    State.goto { s.request r with regs := regs } l =
      State.advanced { s with regs := regs } [.req r s.nextAnswer] l := by
  simp [State.goto, State.advanced]

/-- Under the host's link a waveform operation ends its command (R40, R110). -/
theorem returnTo_of_host {s : State} (h : s.fg.ret = .host) (cont : Label) (st : Status) :
    s.returnTo cont st = s.ended [] st.byte := by
  simp [State.returnTo, h, respond_eq_ended]

/-- The same after a request, with the registers and the bank index that its micro-step writes. -/
theorem request_returnTo_of_host {s : State} (h : s.fg.ret = .host) (r : Request) (regs : Regs) (i : BitVec 4)
    (cont : Label) (st : Status) :
    State.returnTo { s.request r with regs := regs, fg := { s.fg with i := i } } cont st =
      State.ended { s with regs := regs, fg := { s.fg with i := i } } [.req r s.nextAnswer] st.byte := by
  rw [returnTo_of_host (by exact h)]
  simp [State.ended]

/-- `ERR_DRV(c)` is the byte `0x80 + c` (R90). -/
theorem errDrv_byte_toNat (c : Answer) : (Status.errDrv c).byte.toNat = 0x80 + c.toNat := by
  change ((1 : BitVec 1) ++ c).toNat = _
  rw [BitVec.toNat_append, ← Nat.shiftLeft_add_eq_or_of_lt c.isLt]
  rfl

theorem errDrv_byte {c : Answer} (h : c ≠ 0) : (Status.errDrv c).byte = driverStatus c := by
  have hc := c.isLt
  apply BitVec.eq_of_toNat_eq
  rw [errDrv_byte_toNat, driverStatus, if_neg h, BitVec.toNat_ofNat]
  omega

/-- Only `OK` has the byte 0x00 (R90). -/
theorem Status.byte_eq_zero_iff (st : Status) : st.byte = 0x00 ↔ st = .ok := by
  cases st with
  | ok | errRange | errIllegal | errState => decide
  | errDrv c =>
    refine iff_of_false (fun h => ?_) nofun
    have hb := congrArg BitVec.toNat h
    rw [errDrv_byte_toNat] at hb
    change _ = 0 at hb
    omega

/-! ### Refused requests -/

/-- A waveform operation whose request the driver refuses returns `ERR_DRV` and writes nothing (R110, R205). -/
theorem microAt_refused {s : State} {r : Request} (hc : s.fg.pc.callable = true) (hr : s.heldRequest = some r)
    (ha : s.nextAnswer ≠ 0) :
    ∃ cont, microAt s = .next ((s.request r).returnTo cont (.errDrv s.nextAnswer)) := by
  unfold State.heldRequest at hr
  unfold microAt
  cases hl : s.fg.pc with (rw [hl] at hr hc; cases hr)
  | sp1 => exact ⟨.ev6, if_pos ha⟩
  | db => exact ⟨.ev7, if_pos ha⟩
  | ds1 => exact ⟨.ev7, if_pos ha⟩
  | rn3 => exact ⟨.ev9, if_pos ha⟩
  | in1 | de1 | st1 | st2 | so1 | so2 => cases hc

/-- Under the host's link the refused request ends the command (R91, R110). -/
theorem exec_refused {s : State} {i : Instr} {l : Label} {r : Request} (h : s.StandsAt i l .host)
    (hi : runsAt i l .host = true) (hc : l.callable = true) (hr : s.heldRequest = some r) (ha : s.nextAnswer ≠ 0) :
    exec i s = .next (s.ended [.req r s.nextAnswer] (driverStatus s.nextAnswer)) := by
  have ⟨hpc, hret, _⟩ := h
  obtain ⟨cont, hm⟩ := microAt_refused (hpc ▸ hc) hr ha
  rw [exec_standing h hi, hm, ← errDrv_byte ha]
  exact congrArg _ (request_returnTo_of_host hret r s.regs s.fg.i cont _)

/-- Under PROC's link it ends PROC, with the link the host's again (R166; assumption log 9). -/
theorem request_returnTo_error_of_proc {s : State} (h : s.fg.ret = .proc) (r : Request) {st : Status} (hst : st ≠ .ok)
    (cont : Label) :
    (s.request r).returnTo cont st = s.backInProc.ended [.req r s.nextAnswer] st.byte := by
  simp [State.returnTo, h, hst, State.backInProc, State.ended, State.respond, State.answer]

/-- Settles O33: at each of the four labels the request is refused, and PROC's link sends the status on. -/
theorem failedCallEndsThePass : Obligations.FailedCallEndsThePass := by
  intro s hpc hret hcmd ha
  have hlabel : s.fg.pc.callable = true ∧ s.heldRequest.isSome = true := by
    rw [heldRequest_isSome]
    revert hpc
    cases s.fg.pc <;> decide
  obtain ⟨hcall, hheld⟩ := hlabel
  obtain ⟨r, hr⟩ := Option.isSome_iff_exists.mp hheld
  obtain ⟨cont, hm⟩ := microAt_refused hcall hr ha
  refine ⟨r, hr, ?_⟩
  rw [exec_proc_called hcall ⟨rfl, hret, hcmd⟩, hm, request_returnTo_error_of_proc hret r (by simp),
    errDrv_byte ha]

/-! ### SPEED -/

/-- With a conversion constant of at least 1 the product is 0 for speed 0 alone (R111, R112). -/
theorem speedWave_eq {c : Params} (hc : c.Valid) (kmh : Nat) :
    speedWave c kmh = (if kmh = 0 then c.fMin else c.speedConv * kmh, if kmh = 0 then 0 else 50) := by
  obtain ⟨hpos, -⟩ := hc.speedConv
  have hzero : c.speedConv * kmh = 0 ↔ kmh = 0 := by
    rw [Nat.mul_eq_zero]
    omega
  unfold speedWave
  simp only [hzero]
  split <;> rfl

/-- The frequency of a 16-bit speed fits its 32-bit field (R112). -/
theorem speedWave_lt {c : Params} (hc : c.Valid) {kmh : Nat} (hk : kmh < 2 ^ 16) :
    (if kmh = 0 then c.fMin else c.speedConv * kmh) < 2 ^ 32 := by
  split
  · exact hc.fMin.2
  · exact (Nat.mul_lt_mul'' hc.speedConv.2 hk : _ < 2 ^ 16 * 2 ^ 16)

/-- A duty in a request's field is the duty in the register (R21, R91). -/
theorem setWidth_duty {n : Nat} (h : n < 2 ^ 7) : (BitVec.ofNat 7 n).setWidth 32 = BitVec.ofNat 32 n := by
  apply BitVec.eq_of_toNat_eq
  simp only [BitVec.toNat_setWidth, BitVec.toNat_ofNat]
  omega

/-- SP1 with its request accepted (R111). -/
theorem microSP1_accepted {s : State} (ha : s.nextAnswer = 0) :
    microSP1 s = .next (State.returnTo { s.request s.speedRequest with regs := { s.regs with
      speedFreq := BitVec.ofNat 32 (speedWave s.cfg s.operand).1
      speedDuty := BitVec.ofNat 7 (speedWave s.cfg s.operand).2 } } .ev6 .ok) :=
  if_neg (not_not.mpr ha)

/-- Settles O16: the pair that SP1 requests is the one it stores. -/
theorem speedRealisesTheWind : Obligations.SpeedRealisesTheWind := by
  rintro _ s h rfl hvalid
  have ⟨hpc, hret, _⟩ := h
  have hwave := speedWave_eq hvalid s.fg.arg.toNat
  have hfreq := speedWave_lt hvalid s.fg.arg.isLt
  have hduty : (if s.fg.arg.toNat = 0 then 0 else 50) < 2 ^ 7 := by split <;> decide
  generalize hf : (if s.fg.arg.toNat = 0 then s.cfg.fMin else s.cfg.speedConv * s.fg.arg.toNat) = f at *
  generalize hd : (if s.fg.arg.toNat = 0 then 0 else 50) = d at *
  have hreq : s.speedRequest = ⟨.waveform, 0, BitVec.ofNat 32 f, (BitVec.ofNat 7 d).setWidth 32⟩ := by
    simp only [State.speedRequest, State.operand, hwave, setWidth_duty hduty, waveformRequest, chanSpeed]
  refine ⟨BitVec.ofNat 32 f, BitVec.ofNat 7 d, Nat.mod_eq_of_lt hfreq, Nat.mod_eq_of_lt hduty, fun ha => ?_,
    fun ha => exec_refused h rfl rfl ?_ ha⟩
  · rw [exec_standing h rfl, microAt, hpc, ← hreq]
    refine (microSP1_accepted ha).trans ?_
    rw [State.operand, hwave]
    exact congrArg _ (request_returnTo_of_host hret _ _ s.fg.i .ev6 .ok)
  · simp [State.heldRequest, hpc, hreq]

/-! ### RAINRST -/

/-- Settles O25: RR1 zeroes both depths, and answers `OK`. -/
theorem rainrstZeroesTheDepths : Obligations.RainrstZeroesTheDepths := by
  intro s h
  have ⟨hpc, _, _⟩ := h
  rw [exec_standing h rfl, microAt, hpc]
  exact congrArg _ (respond_eq_ended _ .ok)

/-! ### DIR: the range check and the shared timer -/

/-- Settles O17: the range check comes first, then the variant decides. -/
theorem dirChecksTheRangeFirst : Obligations.DirChecksTheRangeFirst := by
  rintro _ s h rfl
  have ⟨hpc, hret, _⟩ := h
  rw [exec_standing h rfl, microAt, hpc]
  refine ⟨fun hdeg => ?_, fun hdeg hv => ?_, fun hdeg hv => ?_⟩
  · have hout : outOfRange s.operand = true := decide_eq_true hdeg
    simp only [microDR0, hout, if_true, returnTo_of_host hret]
    rfl
  · have hin : outOfRange s.operand = false := decide_eq_false (Nat.not_le.mpr hdeg)
    simp [microDR0, hin, hv, State.advanced]
  · have hin : outOfRange s.operand = false := decide_eq_false (Nat.not_le.mpr hdeg)
    simp [microDR0, hin, hv, goto_eq_advanced]

/-- DS1 with its request accepted (R120). -/
theorem microDS1_accepted {s : State} (ha : s.nextAnswer = 0) :
    microDS1 s = .next (State.returnTo { s.request s.directionRequest with regs := { s.regs with
      outDirFreq := s.regs.speedFreq, outDirDuty := BitVec.ofNat 7 s.sharedDuty } } .ev7 .ok) :=
  if_neg (not_not.mpr ha)

theorem directionDuty_lt (speedDuty deg : Nat) : directionDuty speedDuty deg < 2 ^ 7 := by
  unfold directionDuty
  dsimp only
  split <;> omega

/-- Settles O20: the duty of the request is the one that is stored. -/
theorem dirProgramsTheSharedDuty : Obligations.DirProgramsTheSharedDuty := by
  rintro _ s h rfl -
  have ⟨hpc, hret, _⟩ := h
  have hduty : s.sharedDuty < 2 ^ 7 := directionDuty_lt _ _
  have hreq : s.directionRequest =
      ⟨.waveform, 1, s.regs.speedFreq, (BitVec.ofNat 7 s.sharedDuty).setWidth 32⟩ := by
    simp [State.directionRequest, waveformRequest, chanDirection, setWidth_duty hduty]
  refine ⟨BitVec.ofNat 7 s.sharedDuty, Nat.mod_eq_of_lt hduty, fun ha => ?_, fun ha => exec_refused h rfl rfl ?_ ha⟩
  · rw [exec_standing h rfl, microAt, hpc, ← hreq]
    exact (microDS1_accepted ha).trans (congrArg _ (request_returnTo_of_host hret _ _ s.fg.i .ev7 .ok))
  · simp [State.heldRequest, hpc, hreq]

/-! ### DIR: the windows -/

/-- The machine's window test is the one over the integers (R116). -/
theorem inWindow_iff (bearing tol deg : Nat) : inWindow bearing tol deg = true ↔ InWindow bearing tol deg := by
  simp [inWindow, InWindow]

/-- The window over the integers with its three values of `k` written out. -/
theorem InWindow_iff_or (bearing tol deg : Nat) :
    InWindow bearing tol deg ↔
      (bearing < deg + tol ∧ deg < bearing + tol) ∨
      (bearing + 360 < deg + tol ∧ deg < bearing + 360 + tol) ∨
      (bearing < deg + 360 + tol ∧ deg + 360 < bearing + tol) := by
  simp only [InWindow, List.mem_cons, List.not_mem_nil, or_false, exists_eq_or_imp, exists_eq_left]
  omega

/-- Settles O21: a window that does not wrap is one interval, which only `k = 0` can meet; one that wraps is the
two ends of the circle. -/
theorem windowTestsAgree : Obligations.WindowTestsAgree := by
  intro b tol deg hb hpos htol hdeg
  refine ⟨inWindow_iff b tol deg, ?_⟩
  rw [InWindow_iff_or, windowInNaturals]
  split
  · rw [Bool.and_eq_true, decide_eq_true_iff, decide_eq_true_iff]
    omega
  · rw [Bool.or_eq_true, decide_eq_true_iff, decide_eq_true_iff]
    omega

theorem romRead_bankBearing (c : Params) (j : Fin 8) : romRead c.bankBearing.toList j = c.bankBearing[j] := by
  simp [romRead]

/-- The machine selects the banks whose window contains the bearing (R115, R116). -/
theorem bankSelected_iff (c : Params) (j : Fin 8) (deg : Nat) :
    bankSelected c j deg = true ↔ InWindow c.bankBearing[j] c.dirTol deg := by
  rw [bankSelected, romRead_bankBearing, inWindow_iff]

theorem bankLevel_eq_levelOf (c : Params) (selected : Bool) :
    (if bankLevel c selected then 1 else 0 : Word32) = levelOf c selected := by
  unfold bankLevel levelOf
  cases selected <;> cases c.bankActiveLevel <;> rfl

/-! ### DIR: one turn of the bank loop -/

/-- Writing one bit of the banks leaves the others (R39). -/
theorem setBit_getLsbD (v : BitVec 8) {i k : Nat} (hk : k < 8) (b : Bool) :
    (setBit v i b).getLsbD k = if k = i then b else v.getLsbD k := by
  have hbit : (1 : BitVec 8) <<< i = BitVec.twoPow 8 i := (BitVec.twoPow_eq 8 i).symm
  have hmask : (BitVec.twoPow 8 i).getLsbD k = decide (k = i) := by
    simp only [BitVec.getLsbD_twoPow, eq_comm (a := i)]
    by_cases h : k = i <;> simp [h]
    omega
  rw [setBit, hbit]
  cases b with
  | true =>
    simp only [if_true, BitVec.getLsbD_or, hmask]
    by_cases h : k = i <;> simp [h]
  | false =>
    simp only [Bool.false_eq_true, if_false, BitVec.getLsbD_and, BitVec.getLsbD_not, hmask, hk, decide_true,
      Bool.true_and]
    by_cases h : k = i <;> simp [h]

section BankTurn

variable {deg : Nat} {s : State} {j : Fin 8}

/-- DIR's request at bank `j` (R115, R118). -/
theorem bankRequest_eq (hdeg : s.fg.arg.toNat = deg) (hi : s.fg.i = BitVec.ofNat 4 j) :
    s.bankRequest = ⟨.bankWrite, BitVec.ofNat 4 j, levelOf s.cfg (bankSelected s.cfg j deg), 0⟩ := by
  have hj : s.fg.i.toNat = j := by
    rw [hi]
    exact Nat.mod_eq_of_lt (by omega)
  rw [State.bankRequest, bankLevel_eq_levelOf, hj, State.operand, hdeg, hi]

/-- The writes of the turn at bank `j` whose request is accepted (R115). -/
def State.bankWritten (s : State) (deg : Nat) (j : Fin 8) : State :=
  { s with
    regs := { s.regs with outBankSel := setBit s.regs.outBankSel j (bankSelected s.cfg j deg) }
    fg := { s.fg with i := BitVec.ofNat 4 (j + 1) } }

/-- DB with its request accepted: the bank is written, and the loop goes on or ends at bank 7 (R115). -/
theorem microDB_accepted (hdeg : s.fg.arg.toNat = deg) (hi : s.fg.i = BitVec.ofNat 4 j) (hret : s.fg.ret = .host)
    (ha : s.nextAnswer = 0) :
    microDB s = .next (
      if j.val = 7 then (s.bankWritten deg j).ended [.req s.bankRequest s.nextAnswer] 0x00
      else (s.bankWritten deg j).advanced [.req s.bankRequest s.nextAnswer] .db) := by
  have hj : s.fg.i.toNat = j := by
    rw [hi]
    exact Nat.mod_eq_of_lt (by omega)
  have hnext : s.fg.i + 1 = BitVec.ofNat 4 (j + 1) := by
    rw [hi]
    simp [BitVec.ofNat_add]
  have hlast : ∀ k : Fin 8, BitVec.ofNat 4 (k + 1) = 8 ↔ k.val = 7 := by decide
  simp only [microDB, ha, ne_eq, not_true_eq_false, if_false, request_fg, request_regs, State.operand, hdeg, hj, hnext,
    hlast]
  split
  · rw [request_returnTo_of_host hret, ha]
    rfl
  · rw [goto_eq_advanced]
    simp [State.advanced, State.bankWritten, ha]

end BankTurn

/-- Settles O19: the selection is the machine's own, and the bit that an accepted turn writes is bank `j`'s. -/
theorem dirWritesOneBankPerTurn : Obligations.DirWritesOneBankPerTurn := by
  intro deg s j h hdeg hi
  have ⟨hpc, hret, _⟩ := h
  have hheld : s.heldRequest = some s.bankRequest := by simp [State.heldRequest, hpc]
  refine ⟨bankSelected s.cfg j deg, bankSelected_iff _ _ _, ?_⟩
  rw [← bankRequest_eq hdeg hi]
  refine ⟨fun ha => exec_refused h rfl rfl hheld ha, fun ha => ?_⟩
  refine ⟨setBit s.regs.outBankSel j (bankSelected s.cfg j deg), fun k hk => setBit_getLsbD _ hk _, ?_⟩
  rw [exec_standing h rfl, microAt, hpc]
  exact microDB_accepted hdeg hi hret ha

/-! ### Runs -/

theorem run_succ {s t : State} (h : step s = .next t) (k : Nat) :
    Host.Core.run Sys2Proof.core (k + 1) s = Host.Core.run Sys2Proof.core k t := by
  simp only [Host.Core.run, Sys2Proof.core, h]

theorem run_one {s t : State} (h : step s = .next t) : Host.Core.run Sys2Proof.core 1 s = .next t :=
  run_succ h 0

/-! ### DIR: the whole bank loop -/

/-- What an accepted turn at bank `j` adds to the history (R115). -/
def bankEntry (c : Params) (deg : Nat) (j : Fin 8) : Entry :=
  .req ⟨.bankWrite, BitVec.ofNat 4 j, levelOf c (bankSelected c j deg), 0⟩ 0

/-- The banks that a loop standing at bank `j` still has to write. -/
def banksFrom (j : Nat) : List (Fin 8) := (List.finRange 8).drop j

theorem banksFrom_eq_cons : ∀ j : Fin 8, banksFrom j = j :: banksFrom (j + 1) := by decide

/-- A command that ends after FG has moved on with entries `es` has added those, too. -/
theorem advanced_ended (s : State) (es es' : List Entry) (l : Label) (regs : Regs) (i : BitVec 4) (st : StatusByte) :
    State.ended { s.advanced es l with regs := regs, fg := { (s.advanced es l).fg with i := i } } es' st =
      State.ended { s with regs := regs, fg := { s.fg with i := i } } (es ++ es') st := by
  simp [State.ended, State.advanced, Nat.add_assoc]

theorem decodeCommand_dir {deg : Nat} (h : deg < 2 ^ 16) : decodeCommand (commandWord (.dir deg)) = .ok (.dir deg) :=
  decodeCommand_commandWord rfl (decide_eq_true h)

/-- The turn at bank `j` writes bit `j` (R115). -/
theorem bankWritten_getLsbD (s : State) (deg : Nat) (j : Fin 8) {k : Nat} (hk : k < 8) :
    (s.bankWritten deg j).regs.outBankSel.getLsbD k =
      if k = j then bankSelected s.cfg k deg else s.regs.outBankSel.getLsbD k := by
  rw [State.bankWritten, setBit_getLsbD _ hk]
  split <;> simp [*]

/-- One step of DIR at bank `j`, alone and with its request accepted (R115). -/
theorem step_dir_bank {deg : Nat} {s : State} {j : Fin 8} (hfit : deg < 2 ^ 16)
    (h : s.StandsAt (.dir deg) .db .host) (hdeg : s.fg.arg.toNat = deg) (hi : s.fg.i = BitVec.ofNat 4 j)
    (hagenda : s.agenda = []) (ha : s.nextAnswer = 0) :
    step s = .next (
      if j.val = 7 then (s.bankWritten deg j).ended [bankEntry s.cfg deg j] 0x00
      else (s.bankWritten deg j).advanced [bankEntry s.cfg deg j] .db) := by
  obtain ⟨hpc, hret, hcmd⟩ := h
  have hd : decodeCommand s.fg.cmd = .ok (.dir deg) := by
    rw [hcmd]
    exact decodeCommand_dir hfit
  rw [step_of_agenda_nil hagenda (by simp [hpc]) hd, exec_standing ⟨hpc, hret, hcmd⟩ rfl, microAt, hpc]
  refine (microDB_accepted hdeg hi hret ha).trans ?_
  rw [ha, bankRequest_eq hdeg hi]
  rfl

/-- From bank `j` on, with every request accepted, the loop writes each bank's selection and ends with `OK` (R115). -/
theorem run_dir_banks {deg : Nat} (hfit : deg < 2 ^ 16) (rest : List Answer) (m : Nat) :
    ∀ (j : Fin 8) (s : State), j + m = 7 → s.StandsAt (.dir deg) .db .host → s.fg.arg.toNat = deg →
      s.fg.i = BitVec.ofNat 4 j → s.agenda = [] → s.answers = List.replicate (m + 1) (0 : Answer) ++ rest →
      ∃ sel : BitVec 8,
        (∀ k, k < 8 → sel.getLsbD k = if k < j then s.regs.outBankSel.getLsbD k else bankSelected s.cfg k deg) ∧
        Host.Core.run Sys2Proof.core (m + 1) s = .next (State.ended
          { s with regs := { s.regs with outBankSel := sel }, fg := { s.fg with i := 8 } }
          ((banksFrom j).map (bankEntry s.cfg deg)) 0x00) := by
  induction m with
  | zero =>
    intro j s hj h hdeg hi hagenda hanswers
    have hstep := step_dir_bank hfit h hdeg hi hagenda (nextAnswer_cons s hanswers)
    obtain rfl : j = 7 := Fin.ext hj
    refine ⟨(s.bankWritten deg 7).regs.outBankSel, fun k hk => ?_, run_one hstep⟩
    rw [bankWritten_getLsbD s deg 7 hk]
    obtain hlt | rfl : k < 7 ∨ k = 7 := by omega
    · simp [hlt, hlt.ne]
    · simp
  | succ m ih =>
    intro j s hj h hdeg hi hagenda hanswers
    have hstep := step_dir_bank hfit h hdeg hi hagenda (nextAnswer_cons s hanswers)
    rw [if_neg (by omega)] at hstep
    obtain ⟨-, hret, hcmd⟩ := h
    obtain ⟨sel, hsel, hrun⟩ := ih ⟨j + 1, by omega⟩ ((s.bankWritten deg j).advanced [bankEntry s.cfg deg j] .db)
      (by simp only; omega) ⟨rfl, hret, hcmd⟩ hdeg rfl hagenda (congrArg (List.drop 1) hanswers)
    refine ⟨sel, fun k hk => (hsel k hk).trans ?_, ?_⟩
    · change (if k < j + 1 then (s.bankWritten deg j).regs.outBankSel.getLsbD k else bankSelected s.cfg k deg) = _
      rw [bankWritten_getLsbD s deg j hk]
      obtain hlt | rfl | hgt := Nat.lt_trichotomy k j
      · simp [hlt, hlt.ne, Nat.lt_succ_of_lt hlt]
      · simp
      · simp [Nat.not_lt.mpr hgt.le, Nat.not_lt.mpr (Nat.succ_le_of_lt hgt)]
    · rw [run_succ hstep, hrun, banksFrom_eq_cons j]
      exact congrArg _ (advanced_ended _ _ _ _ _ _ _)

/-- Settles O18: DR0 sends DIR to bank 0, and the loop writes all eight banks. -/
theorem dirSelectsTheBanksInTheWindow : Obligations.DirSelectsTheBanksInTheWindow := by
  intro deg s rest h hfit hdeg hrange hbank hagenda hanswers
  obtain ⟨-, hstart, -⟩ := dirChecksTheRangeFirst deg s h hdeg
  obtain ⟨hpc, hret, hcmd⟩ := h
  have hstep := step_of_agenda_nil hagenda (by simp [hpc]) (hcmd ▸ decodeCommand_dir hfit)
  rw [hstart hrange hbank] at hstep
  obtain ⟨sel, hsel, hrun⟩ := run_dir_banks hfit rest 7 0
    (State.advanced { s with fg := { s.fg with i := 0 } } [] .db) rfl ⟨rfl, hret, hcmd⟩ hdeg rfl hagenda hanswers
  have hbits (j : Fin 8) : sel.getLsbD j = bankSelected s.cfg j deg := (hsel j j.isLt).trans (if_neg (by simp))
  have hentry : bankEntry s.cfg deg = fun j : Fin 8 =>
      .req ⟨.bankWrite, BitVec.ofNat 4 j, levelOf s.cfg (sel.getLsbD j), 0⟩ 0 := by
    funext j
    rw [bankEntry, hbits]
  refine ⟨sel, _, fun j => ?_, (run_succ hstep 8).trans hrun, rfl, rfl, rfl, rfl, rfl, ?_, hagenda, ?_⟩
  · rw [hbits, bankSelected_iff]
  · simp [State.ended, State.advanced, hanswers, banksFrom]
  · simp [State.ended, State.advanced, banksFrom, hentry, hcmd]

/-! ### The same operation under the host's link and under PROC's -/

/-- `s` with FG running the command of word `w` under link `ret`. -/
def State.calledBy (s : State) (ret : Link) (w : Word32) : State := { s with fg := { s.fg with ret := ret, cmd := w } }

@[simp] theorem calledBy_pc (s : State) (ret : Link) (w : Word32) : (s.calledBy ret w).fg.pc = s.fg.pc := rfl

/-- What one micro-step from `s` gives under the host's command `w` and under PROC's call: the same fault, the same
state in which the operation goes on, or the same return, after the requests `es` (R40, R110). -/
inductive SameStep (s : State) (w : Word32) (cont : Label) : Result → Result → Prop where
  | faults (f : Fault) : SameStep s w cont (.fault f) (.fault f)
  | goesOn (t : State) (hpc : t.fg.pc ≠ .idle) :
      SameStep s w cont (.next t) (.next (t.calledBy .proc (commandWord .proc)))
  | returns (u : State) (es : List Entry) (st : Status) (hret : u.fg.ret = .host) (hcmd : u.fg.cmd = w)
      (hhist : u.hist = s.hist ++ es) (hport : u.port = s.port) :
      SameStep s w cont (.next (u.returnTo cont st))
        (.next ((u.calledBy .proc (commandWord .proc)).returnTo cont st))

/-- A test that both sides make is decided once. -/
theorem SameStep.ite {s : State} {w : Word32} {cont : Label} {p : Prop} [Decidable p] {a b c d : Result}
    (ht : p → SameStep s w cont a b) (hf : ¬p → SameStep s w cont c d) :
    SameStep s w cont (if p then a else c) (if p then b else d) := by
  by_cases h : p
  · rw [if_pos h, if_pos h]
    exact ht h
  · rw [if_neg h, if_neg h]
    exact hf h

/-- Where PROC goes on after the operation that a callable label belongs to (R161, R162, R164). -/
def Label.returnsTo : Label → Label
  | .sp1 => .ev6
  | .dr0 | .db | .ds1 => .ev7
  | .rn1 | .rn2 | .rn3 | .rn4 | .rn5 => .ev9
  | .idle | .ev1 | .ev2 | .ev3 | .ev4 | .ev5 | .ev6 | .ev7 | .ev8 | .ev9
  | .rr1 | .in1 | .de1 | .st1 | .st2 | .so1 | .so2 | .ak1 => .idle

theorem continuation_eq_returnsTo {i : Instr} {l : Label} (hc : l.callable = true) (hr : runsAt i l .host = true) :
    continuation i = l.returnsTo := by
  cases l with (cases hc)
  | sp1 | dr0 | db | ds1 | rn1 | rn2 | rn3 | rn4 | rn5 =>
    cases i <;> cases hr
    rfl

/-- No waveform micro-step looks at the link or at the command word but to return (R110). -/
theorem microAt_sameStep {s : State} (hc : s.fg.pc.callable = true) (w : Word32) :
    SameStep s w s.fg.pc.returnsTo (microAt (s.calledBy .host w))
      (microAt (s.calledBy .proc (commandWord .proc))) := by
  have hs : s.hist = s.hist ++ [] := (List.append_nil _).symm
  unfold microAt
  rw [calledBy_pc, calledBy_pc]
  cases hl : s.fg.pc with (rw [hl] at hc; cases hc)
  | sp1 | ds1 =>
    refine .ite (fun _ => ?_) (fun _ => ?_)
    · exact .returns _ [_] _ rfl rfl rfl rfl
    · exact .returns _ [_] _ rfl rfl rfl rfl
  | dr0 =>
    refine .ite (fun _ => ?_) (fun _ => ?_)
    · exact .returns _ [] _ rfl rfl hs rfl
    · change SameStep s w _ (match s.cfg.variant with | .bank => _ | .shared => _)
        (match s.cfg.variant with | .bank => _ | .shared => _)
      cases s.cfg.variant with
      | bank | shared => exact .goesOn _ nofun
  | db =>
    refine .ite (fun _ => ?_) (fun _ => .ite (fun _ => ?_) (fun _ => ?_))
    · exact .returns _ [_] _ rfl rfl rfl rfl
    · exact .returns _ [_] _ rfl rfl rfl rfl
    · exact .goesOn _ nofun
  | rn1 | rn4 =>
    refine .ite (fun _ => ?_) (fun _ => ?_)
    · exact .faults _
    · exact .goesOn _ nofun
  | rn2 =>
    refine .ite (fun _ => ?_) (fun _ => ?_)
    · exact .goesOn _ nofun
    · exact .returns _ [] _ rfl rfl hs rfl
  | rn3 =>
    refine .ite (fun _ => ?_) (fun _ => ?_)
    · exact .returns _ [_] _ rfl rfl rfl rfl
    · exact .goesOn _ nofun
  | rn5 =>
    refine .ite (fun _ => ?_) (fun _ => ?_)
    · exact .goesOn _ (by simp [hl])
    · exact .goesOn _ nofun

/-- The two meanings that O32 compares are two micro-steps. -/
theorem exec_sameStep {i : Instr} {s : State} (hc : s.fg.pc.callable = true) (hr : runsAt i s.fg.pc .host = true) :
    SameStep s (commandWord i) (continuation i) (exec i (s.calledBy .host (commandWord i)))
      (exec .proc (s.calledBy .proc (commandWord .proc))) := by
  rw [exec_running (s := s.calledBy .host (commandWord i)) hr rfl,
    exec_proc_called (s := s.calledBy .proc (commandWord .proc)) hc ⟨rfl, rfl, rfl⟩,
    continuation_eq_returnsTo hc hr]
  exact microAt_sameStep hc _

/-- Settles O32: the micro-step is the same one, and the return differs by the link. -/
theorem calledOperationWritesTheSame : Obligations.CalledOperationWritesTheSame := by
  intro i s hc hr byHost byProc
  have hsame : SameStep s (commandWord i) (continuation i) byHost byProc := exec_sameStep hc hr
  generalize byHost = host, byProc = proc at hsame
  cases hsame with
  | faults f =>
    refine ⟨fun _ h => ?_, fun _ h => ?_, fun _ h => ?_⟩ <;> cases h
    rfl
  | goesOn t hpc =>
    refine ⟨fun _ h => (by cases h), fun _ h _ => ?_, fun _ h hidle => ?_⟩
    · cases h
      rfl
    · cases h
      exact absurd hidle hpc
  | returns u es st hret hcmd hhist hport =>
    rw [returnTo_of_host hret]
    refine ⟨fun _ h => (by cases h), fun _ h hbusy => ?_, fun _ h _ => ⟨es, st.byte, ?_⟩⟩ <;> cases h
    · exact absurd rfl hbusy
    · refine ⟨by simp [State.ended, hhist, hcmd], by simp [State.ended, hport], congrArg _ ?_⟩
      by_cases hst : st = .ok
      · rw [if_pos ((Status.byte_eq_zero_iff st).mpr hst), hst, returnTo_ok_of_proc rfl]
        simp [State.calledBy, State.ended, hret, hhist, hport]
      · rw [if_neg ((Status.byte_eq_zero_iff st).not.mpr hst)]
        simp [State.returnTo, State.calledBy, State.ended, State.respond, State.answer, hst, hret, hhist]

end Sys2Proof.Machine
end

section
/-! PROOFS. RAIN: its five micro-steps (O22), the loop in the prompt environment of R94 and the number of its pulses
(O23), and a list of RAIN commands (O24). -/

namespace Sys2Proof.Machine

open Sys2Proof.Config

/-! ### RAIN: the micro-steps -/

section RainSteps

variable {mm : Nat} {s : State}

/-- RN1 raises the target (R122). -/
theorem exec_rain_rn1 (h : s.StandsAt (.rain mm) .rn1 .host) (hmm : s.fg.arg.toNat = mm)
    (hfit : s.regs.rainTargetUm.toNat + mm * 1000 < 2 ^ 32) :
    exec (.rain mm) s = .next (State.advanced { s with regs := { s.regs with
      rainTargetUm := BitVec.ofNat 32 (s.regs.rainTargetUm.toNat + mm * 1000) } } [] .rn2) := by
  have ⟨hpc, _, _⟩ := h
  rw [exec_standing h rfl, microAt, hpc, ← goto_eq_advanced, ← hmm]
  rw [← hmm] at hfit
  exact if_neg (decide_eq_true_iff.not.mpr (Nat.not_le.mpr hfit))

theorem exec_rain_rn1_overflow (h : s.StandsAt (.rain mm) .rn1 .host) (hmm : s.fg.arg.toNat = mm)
    (hover : 2 ^ 32 ≤ s.regs.rainTargetUm.toNat + mm * 1000) : exec (.rain mm) s = .fault .overflow := by
  have ⟨hpc, _, _⟩ := h
  rw [exec_standing h rfl, microAt, hpc]
  rw [← hmm] at hover
  exact if_pos (decide_eq_true hover)

/-- RN2 asks for a pulse below the target, and ends RAIN at it (R122). -/
theorem exec_rain_rn2 (h : s.StandsAt (.rain mm) .rn2 .host) :
    exec (.rain mm) s = .next (
      if s.regs.rainAccUm.toNat < s.regs.rainTargetUm.toNat then s.advanced [] .rn3 else s.ended [] 0x00) := by
  have ⟨hpc, hret, _⟩ := h
  rw [exec_standing h rfl, microAt, hpc]
  simp only [microRN2, goto_eq_advanced, returnTo_of_host hret, apply_ite Host.Outcome.next]
  rfl

/-- RN3 counts an accepted pulse, saturating, and has it in flight (R122). -/
theorem exec_rain_rn3 (h : s.StandsAt (.rain mm) .rn3 .host) (ha : s.nextAnswer = 0) :
    exec (.rain mm) s = .next (State.advanced { s with regs := { s.regs with
      rainInflight := true
      rainPulseTotal := BitVec.ofNat 32 (min (s.regs.rainPulseTotal.toNat + 1) (2 ^ 32 - 1)) } }
        [.req (pulseRequest s.cfg) s.nextAnswer] .rn4) := by
  have ⟨hpc, _, _⟩ := h
  rw [exec_standing h rfl, microAt, hpc]
  exact (if_neg (not_not.mpr ha)).trans (congrArg _ (request_goto s (pulseRequest s.cfg) _ .rn4))

theorem exec_rain_rn3_refused (h : s.StandsAt (.rain mm) .rn3 .host) (ha : s.nextAnswer ≠ 0) :
    exec (.rain mm) s = .next (s.ended [.req (pulseRequest s.cfg) s.nextAnswer] (driverStatus s.nextAnswer)) := by
  have ⟨hpc, _, _⟩ := h
  exact exec_refused h rfl rfl (by simp [State.heldRequest, hpc]) ha

/-- RN4 advances the depth by one pulse (R122). -/
theorem exec_rain_rn4 (h : s.StandsAt (.rain mm) .rn4 .host)
    (hfit : s.regs.rainAccUm.toNat + s.cfg.edgeToUm < 2 ^ 32) :
    exec (.rain mm) s = .next (State.advanced { s with regs := { s.regs with
      rainAccUm := BitVec.ofNat 32 (s.regs.rainAccUm.toNat + s.cfg.edgeToUm) } } [] .rn5) := by
  have ⟨hpc, _, _⟩ := h
  rw [exec_standing h rfl, microAt, hpc, ← goto_eq_advanced]
  exact if_neg (decide_eq_true_iff.not.mpr (Nat.not_le.mpr hfit))

theorem exec_rain_rn4_overflow (h : s.StandsAt (.rain mm) .rn4 .host)
    (hover : 2 ^ 32 ≤ s.regs.rainAccUm.toNat + s.cfg.edgeToUm) : exec (.rain mm) s = .fault .overflow := by
  have ⟨hpc, _, _⟩ := h
  rw [exec_standing h rfl, microAt, hpc]
  exact if_pos (decide_eq_true hover)

/-- RN5 waits while the pulse is in flight (R122, R123). -/
theorem exec_rain_rn5 (h : s.StandsAt (.rain mm) .rn5 .host) :
    exec (.rain mm) s = .next (if s.regs.rainInflight then s else s.advanced [] .rn2) := by
  have ⟨hpc, _, _⟩ := h
  rw [exec_standing h rfl, microAt, hpc]
  simp only [microRN5, goto_eq_advanced, apply_ite Host.Outcome.next]

end RainSteps

/-- Settles O22: one lemma for each clause. -/
theorem rainTakesItsFiveMicroSteps : Obligations.RainTakesItsFiveMicroSteps := by
  intro mm s hmm target depth entry
  exact ⟨fun h => exec_rain_rn1 h hmm, fun h => exec_rain_rn1_overflow h hmm, exec_rain_rn2, exec_rain_rn3,
    exec_rain_rn3_refused, exec_rain_rn4, exec_rain_rn4_overflow, exec_rain_rn5⟩

/-! ### RAIN: the number of pulses -/

section PulseCount

variable {acc edge : Nat} (hedge : 1 ≤ edge)
include hedge

/-- The `k`-th pulse is still below the target exactly when `k` is below the number of pulses (R124). -/
theorem lt_pulseCount_iff (target k : Nat) : k < pulseCount acc target edge ↔ acc + k * edge < target := by
  rw [pulseCount, ceilDiv, ← Nat.succ_le_iff, Nat.le_div_iff_mul_le hedge, Nat.succ_mul]
  omega

/-- The pulses lift the depth to the target (R124). -/
theorem le_pulseCount (target : Nat) : target ≤ acc + pulseCount acc target edge * edge :=
  Nat.not_lt.mp ((lt_pulseCount_iff hedge target _).not.mp (Nat.lt_irrefl _))

/-- No pulse is emitted at or above the target (R124). -/
theorem pulseCount_of_le {target : Nat} (h : target ≤ acc) : pulseCount acc target edge = 0 := by
  have hnot := (lt_pulseCount_iff hedge (acc := acc) target 0).not.mpr (by omega)
  omega

/-- The pulses up to a target are those up to an earlier one and those from there on (R124). -/
theorem pulseCount_add {mid target : Nat} (h : mid ≤ target) :
    pulseCount acc target edge =
      pulseCount acc mid edge + pulseCount (acc + pulseCount acc mid edge * edge) target edge := by
  refine eq_of_forall_lt_iff fun k => ?_
  rw [lt_pulseCount_iff hedge]
  have hmid := lt_pulseCount_iff hedge (acc := acc) mid k
  generalize pulseCount acc mid edge = n at *
  obtain hk | ⟨m, rfl⟩ : k < n ∨ ∃ m, k = n + m := (Nat.lt_or_ge k n).imp_right Nat.exists_eq_add_of_le
  · have hlt := hmid.mp hk
    exact iff_of_true (by omega) (by omega)
  · have hrest := lt_pulseCount_iff hedge (acc := acc + n * edge) target m
    rw [Nat.add_lt_add_iff_left, hrest, Nat.add_mul, Nat.add_assoc]

end PulseCount

/-! ### RAIN: the turns of its loop -/

/-- The registers after `k` pulses that have been accepted and completed (R42, R122). -/
def Regs.pulsed (r : Regs) (edge k : Nat) : Regs :=
  { r with
    rainAccUm := BitVec.ofNat 32 (r.rainAccUm.toNat + k * edge)
    rainPulseTotal := BitVec.ofNat 32 (min (r.rainPulseTotal.toNat + k) (2 ^ 32 - 1)) }

theorem Regs.pulsed_zero (r : Regs) (edge : Nat) : r.pulsed edge 0 = r := by
  have htotal : min (r.rainPulseTotal.toNat + 0) (2 ^ 32 - 1) = r.rainPulseTotal.toNat := by
    have := r.rainPulseTotal.isLt
    omega
  rw [Regs.pulsed, htotal, Nat.zero_mul, Nat.add_zero, BitVec.ofNat_toNat, BitVec.ofNat_toNat, BitVec.setWidth_eq,
    BitVec.setWidth_eq]

theorem Regs.pulsed_pulsed (r : Regs) (edge j k : Nat) : (r.pulsed edge j).pulsed edge k = r.pulsed edge (j + k) := by
  have hacc : BitVec.ofNat 32 ((BitVec.ofNat 32 (r.rainAccUm.toNat + j * edge)).toNat + k * edge) =
      BitVec.ofNat 32 (r.rainAccUm.toNat + (j + k) * edge) := by
    rw [BitVec.ofNat_add, BitVec.ofNat_toNat, BitVec.setWidth_eq, ← BitVec.ofNat_add, Nat.add_mul, Nat.add_assoc]
  have htotal : min ((BitVec.ofNat 32 (min (r.rainPulseTotal.toNat + j) (2 ^ 32 - 1))).toNat + k) (2 ^ 32 - 1) =
      min (r.rainPulseTotal.toNat + (j + k)) (2 ^ 32 - 1) := by
    rw [BitVec.toNat_ofNat]
    omega
  simp only [Regs.pulsed, hacc, htotal]

/-- The history entry of an accepted pulse (R122). -/
def pulseEntry (c : Params) : Entry := .req (pulseRequest c) 0

theorem run_add {k : Nat} : ∀ {j : Nat} {s t : State}, Host.Core.run Sys2Proof.core j s = .next t →
    Host.Core.run Sys2Proof.core (j + k) s = Host.Core.run Sys2Proof.core k t
  | 0, s, t, h => by
    cases h
    rw [Nat.zero_add]
  | j + 1, s, t, h => by
    cases hs : step s with
    | next u =>
      rw [Nat.add_right_comm, run_succ hs]
      exact run_add ((run_succ hs j).symm.trans h)
    | fault f => simp [Host.Core.run, Sys2Proof.core, hs] at h
    | refused r => simp [Host.Core.run, Sys2Proof.core, hs] at h

/-- FG's turn, next on the agenda, runs the command in `fg_cmd` (R40). -/
theorem step_fg {s : State} {i : Instr} {ms : List Move} (ha : s.agenda = .fg :: ms) (hp : s.fg.pc ≠ .idle)
    (hd : decodeCommand s.fg.cmd = .ok i) : step s = exec i { s with agenda := ms } := by
  apply step_of_nextTask_run
  rw [State.nextTask, ha]
  exact foregroundTurn_busy (s := { s with agenda := ms }) hp hd

theorem decodeCommand_rain {mm : Nat} (h : mm < 2 ^ 16) : decodeCommand (commandWord (.rain mm)) = .ok (.rain mm) :=
  decodeCommand_commandWord rfl (decide_eq_true h)

/-- RAIN, started from `s`, at label `l` of its loop: the registers are `regs`, the entries `es` have been added to the
history, and `ms` is on the agenda. -/
def State.inLoop (s : State) (regs : Regs) (es : List Entry) (l : Label) (ms : List Move) : State :=
  State.advanced { s with regs := regs, agenda := ms } es l

theorem inLoop_advanced (s : State) (regs regs' : Regs) (es es' : List Entry) (l l' : Label) (ms : List Move) :
    State.advanced { s.inLoop regs es l ms with regs := regs' } es' l' = s.inLoop regs' (es ++ es') l' ms := by
  simp [State.inLoop, State.advanced, Nat.add_assoc]

theorem inLoop_ended (s : State) (regs : Regs) (es : List Entry) (l : Label) (ms : List Move) (st : StatusByte) :
    (s.inLoop regs es l ms).ended [] st = State.ended { s with regs := regs, agenda := ms } es st := by
  simp [State.inLoop, State.advanced, State.ended]

section RainLoop

variable {mm : Nat} {s : State} {regs : Regs} {es : List Entry} {ms : List Move} {rest : List Answer}
  (hmm : mm < 2 ^ 16) (hret : s.fg.ret = .host) (hcmd : s.fg.cmd = commandWord (.rain mm))

include hcmd

include hmm in
/-- FG's turn, next on the agenda, goes on with RAIN. -/
theorem step_inLoop {l : Label} (hl : l ≠ .idle) :
    step (s.inLoop regs es l (.fg :: ms)) = exec (.rain mm) (s.inLoop regs es l ms) :=
  step_fg rfl hl (congrArg decodeCommand hcmd ▸ decodeCommand_rain hmm)

include hret

theorem inLoop_standsAt (l : Label) : (s.inLoop regs es l ms).StandsAt (.rain mm) l .host :=
  ⟨rfl, hret, hcmd⟩

include hmm

theorem step_inLoop_rn2 (hbelow : regs.rainAccUm.toNat < regs.rainTargetUm.toNat) :
    step (s.inLoop regs es .rn2 (.fg :: ms)) = .next (s.inLoop regs es .rn3 ms) := by
  rw [step_inLoop hmm hcmd (by decide), exec_rain_rn2 (inLoop_standsAt hret hcmd .rn2)]
  refine congrArg _ ((if_pos hbelow).trans ?_)
  exact (inLoop_advanced s regs regs es [] _ _ ms).trans (by rw [List.append_nil])

/-- At the target RAIN ends with `OK` (R122). -/
theorem step_inLoop_rn2_reached (hreached : regs.rainTargetUm.toNat ≤ regs.rainAccUm.toNat) :
    step (s.inLoop regs es .rn2 (.fg :: ms)) =
      .next (State.ended { s with regs := regs, agenda := ms } es 0x00) := by
  rw [step_inLoop hmm hcmd (by decide), exec_rain_rn2 (inLoop_standsAt hret hcmd .rn2)]
  exact congrArg _ ((if_neg (Nat.not_lt.mpr hreached)).trans (inLoop_ended s regs es _ ms _))

theorem step_inLoop_rn3 (hanswers : s.answers.drop es.length = 0 :: rest) :
    step (s.inLoop regs es .rn3 (.fg :: ms)) = .next (s.inLoop
      { regs with
        rainInflight := true
        rainPulseTotal := BitVec.ofNat 32 (min (regs.rainPulseTotal.toNat + 1) (2 ^ 32 - 1)) }
      (es ++ [pulseEntry s.cfg]) .rn4 ms) := by
  have ha : (s.inLoop regs es .rn3 ms).nextAnswer = 0 := nextAnswer_cons _ hanswers
  rw [step_inLoop hmm hcmd (by decide), exec_rain_rn3 (inLoop_standsAt hret hcmd .rn3) ha, ha]
  exact congrArg _ (inLoop_advanced s regs _ es [pulseEntry s.cfg] _ _ ms)

theorem step_inLoop_rn4 (hfit : regs.rainAccUm.toNat + s.cfg.edgeToUm < 2 ^ 32) :
    step (s.inLoop regs es .rn4 (.fg :: ms)) = .next (s.inLoop
      { regs with rainAccUm := BitVec.ofNat 32 (regs.rainAccUm.toNat + s.cfg.edgeToUm) } es .rn5 ms) := by
  rw [step_inLoop hmm hcmd (by decide), exec_rain_rn4 (inLoop_standsAt hret hcmd .rn4) hfit]
  exact congrArg _ ((inLoop_advanced s regs _ es [] _ _ ms).trans (by rw [List.append_nil]; rfl))

theorem step_inLoop_rn5 (hfree : regs.rainInflight = false) :
    step (s.inLoop regs es .rn5 (.fg :: ms)) = .next (s.inLoop regs es .rn2 ms) := by
  rw [step_inLoop hmm hcmd (by decide), exec_rain_rn5 (inLoop_standsAt hret hcmd .rn5)]
  refine congrArg _ ((if_neg (Bool.eq_false_iff.mp hfree)).trans ?_)
  exact (inLoop_advanced s regs regs es [] _ _ ms).trans (by rw [List.append_nil])

omit hmm hret hcmd in
/-- The DONE event of the pulse in flight, next on the agenda (R146). -/
theorem step_inLoop_done {l : Label} (hfl : regs.rainInflight = true) :
    step (s.inLoop regs es l (.events 0b100 :: ms)) =
      .next (s.inLoop { regs with rainInflight := false } es l ms) := by
  rw [step_events (i := .done) rfl rfl]
  exact if_pos hfl

/-- One turn of RAIN's loop in the prompt environment: one pulse, and back at RN2 (R94, R122). -/
theorem run_pulseTurn (hfree : regs.rainInflight = false)
    (hbelow : regs.rainAccUm.toNat < regs.rainTargetUm.toNat)
    (hfit : regs.rainAccUm.toNat + s.cfg.edgeToUm < 2 ^ 32)
    (hanswers : s.answers.drop es.length = 0 :: rest) :
    Host.Core.run Sys2Proof.core 5 (s.inLoop regs es .rn2 (pulseTurn ++ ms)) =
      .next (s.inLoop (regs.pulsed s.cfg.edgeToUm 1) (es ++ [pulseEntry s.cfg]) .rn2 ms) := by
  simp only [pulseTurn, List.cons_append, List.nil_append]
  rw [run_succ (step_inLoop_rn2 hmm hret hcmd hbelow), run_succ (step_inLoop_rn3 hmm hret hcmd hanswers),
    run_succ (step_inLoop_done (by rfl)), run_succ (step_inLoop_rn4 hmm hret hcmd (by exact hfit)),
    run_one (step_inLoop_rn5 hmm hret hcmd (by rfl))]
  simp [Regs.pulsed, hfree]

/-- `n` turns of the loop below the target, with every pulse accepted (R94, R122). -/
theorem run_pulseTurns (n : Nat) : ∀ (regs : Regs) (es : List Entry),
    regs.rainInflight = false →
    (∀ k, k < n → regs.rainAccUm.toNat + k * s.cfg.edgeToUm < regs.rainTargetUm.toNat) →
    regs.rainAccUm.toNat + n * s.cfg.edgeToUm < 2 ^ 32 →
    s.answers.drop es.length = List.replicate n 0 ++ rest →
    Host.Core.run Sys2Proof.core (5 * n) (s.inLoop regs es .rn2 (pulseTurns n ++ ms)) =
      .next (s.inLoop (regs.pulsed s.cfg.edgeToUm n) (es ++ List.replicate n (pulseEntry s.cfg)) .rn2 ms) := by
  induction n with
  | zero =>
    intro regs es _ _ _ _
    rw [Regs.pulsed_zero, List.replicate_zero, List.append_nil]
    rfl
  | succ n ih =>
    intro regs es hfree hbelow hfit hanswers
    have hstep : regs.rainAccUm.toNat + s.cfg.edgeToUm < 2 ^ 32 := by
      rw [Nat.succ_mul] at hfit
      omega
    have hturn := run_pulseTurn (ms := pulseTurns n ++ ms) hmm hret hcmd hfree (by simpa using hbelow 0 (by omega))
      hstep hanswers
    have hacc : (regs.pulsed s.cfg.edgeToUm 1).rainAccUm.toNat = regs.rainAccUm.toNat + s.cfg.edgeToUm := by
      simpa [Regs.pulsed] using hstep
    have hbelow' (k : Nat) (hk : k < n) :
        (regs.pulsed s.cfg.edgeToUm 1).rainAccUm.toNat + k * s.cfg.edgeToUm < regs.rainTargetUm.toNat := by
      have hlt := hbelow (k + 1) (by omega)
      rw [Nat.succ_mul] at hlt
      omega
    have hfit' : (regs.pulsed s.cfg.edgeToUm 1).rainAccUm.toNat + n * s.cfg.edgeToUm < 2 ^ 32 := by
      rw [Nat.succ_mul] at hfit
      omega
    have hanswers' : s.answers.drop (es ++ [pulseEntry s.cfg]).length = List.replicate n 0 ++ rest := by
      rw [List.length_append, ← List.drop_drop, hanswers]
      rfl
    rw [pulseTurns, List.append_assoc, Nat.mul_succ, Nat.add_comm, run_add hturn,
      ih (regs.pulsed s.cfg.edgeToUm 1) (es ++ [pulseEntry s.cfg]) hfree hbelow' hfit' hanswers',
      Regs.pulsed_pulsed, Nat.add_comm 1 n, List.append_assoc]
    rfl

end RainLoop

/-! ### RAIN: the whole command -/

/-- RAIN, once accepted, from state `s` (R86). -/
def State.rainAccepted (s : State) (mm : Nat) : State :=
  { s with fg := { s.fg with ret := .host, arg := BitVec.ofNat 16 mm, cmd := commandWord (.rain mm) } }

theorem inLoop_nil (s : State) (l : Label) (ms : List Move) :
    s.inLoop s.regs [] l ms = { s with agenda := ms, fg := { s.fg with pc := l } } := by
  simp [State.inLoop, State.advanced]

/-- The registers after RAIN `mm` with `n` pulses (R122). -/
def Regs.rained (r : Regs) (edge mm n : Nat) : Regs :=
  { r.pulsed edge n with rainTargetUm := BitVec.ofNat 32 (r.rainTargetUm.toNat + mm * 1000) }

/-- An initialised idle FG accepts RAIN, and RN1 raises the target (R86, R122). -/
theorem run_rain_start {mm : Nat} {s : State} {ms : List Move} (hmm : mm < 2 ^ 16) (hidle : s.fg.pc = .idle)
    (hinited : s.regs.inited = true) (hfit : s.regs.rainTargetUm.toNat + mm * 1000 < 2 ^ 32)
    (hagenda : s.agenda = .offer (commandWord (.rain mm)) :: .fg :: ms) :
    Host.Core.run Sys2Proof.core 2 s = .next ((s.rainAccepted mm).inLoop { s.regs with
      rainTargetUm := BitVec.ofNat 32 (s.regs.rainTargetUm.toNat + mm * 1000) } [] .rn2 ms) := by
  have hoffer := (stepRunsTheDecodedInstruction s _ _ _).1 hidle hagenda (decodeCommand_rain hmm)
  rw [acceptanceStartsTheOperation (.rain mm) { s with agenda := .fg :: ms } (decide_eq_true hmm) rfl hidle hinited]
    at hoffer
  have haccepted := inLoop_nil (s.rainAccepted mm) .rn1 (.fg :: ms)
  have hoperand : ((s.rainAccepted mm).inLoop s.regs [] .rn1 ms).fg.arg.toNat = mm := Nat.mod_eq_of_lt hmm
  have hstart := step_inLoop (s := s.rainAccepted mm) (regs := s.regs) (es := []) (ms := ms) hmm rfl (l := .rn1)
    (by decide)
  rw [exec_rain_rn1 (inLoop_standsAt rfl rfl .rn1) hoperand hfit] at hstart
  refine (run_succ (hoffer.trans (congrArg _ haccepted.symm)) 1).trans ((run_one hstart).trans (congrArg _ ?_))
  exact inLoop_advanced (s.rainAccepted mm) s.regs _ [] [] .rn1 .rn2 ms

/-- What one RAIN `mm` with `n` pulses leaves of `s`, with `rest` and `ms` still to come (R122, R124). -/
structure State.Rained (s : State) (mm n : Nat) (rest : List Answer) (ms : List Move) (t : State) : Prop where
  cfg : t.cfg = s.cfg
  regs : t.regs = s.regs.rained s.cfg.edgeToUm mm n
  idle : t.fg.pc = .idle
  hist : t.hist = s.hist ++ (List.replicate n (pulseEntry s.cfg) ++ [.rsp (commandWord (.rain mm)) 0x00])
  answers : t.answers = rest
  agenda : t.agenda = ms

/-- One RAIN in the prompt environment: acceptance, RN1, the turns of the loop, and the RN2 that ends it (R94, R122,
R124). -/
theorem run_rain {mm n : Nat} {s : State} {ms : List Move} {rest : List Answer} (hmm : mm < 2 ^ 16)
    (hidle : s.fg.pc = .idle) (hinited : s.regs.inited = true) (hfree : s.regs.rainInflight = false)
    (hedge : 1 ≤ s.cfg.edgeToUm) (hfit : s.regs.rainTargetUm.toNat + mm * 1000 < 2 ^ 32)
    (hn : n = pulseCount s.regs.rainAccUm.toNat (s.regs.rainTargetUm.toNat + mm * 1000) s.cfg.edgeToUm)
    (hdepth : s.regs.rainAccUm.toNat + n * s.cfg.edgeToUm < 2 ^ 32)
    (hanswers : s.answers = List.replicate n 0 ++ rest)
    (hagenda : s.agenda = .offer (commandWord (.rain mm)) :: .fg :: (pulseTurns n ++ .fg :: ms)) :
    ∃ t, Host.Core.run Sys2Proof.core (5 * n + 3) s = .next t ∧ s.Rained mm n rest ms t := by
  have htarget : (BitVec.ofNat 32 (s.regs.rainTargetUm.toNat + mm * 1000)).toNat =
      s.regs.rainTargetUm.toNat + mm * 1000 := Nat.mod_eq_of_lt hfit
  have hbelow (k : Nat) (hk : k < n) : s.regs.rainAccUm.toNat + k * s.cfg.edgeToUm <
      (BitVec.ofNat 32 (s.regs.rainTargetUm.toNat + mm * 1000)).toNat := by
    rw [htarget]
    exact (lt_pulseCount_iff hedge _ k).mp (hn ▸ hk)
  have hreached : (s.regs.rained s.cfg.edgeToUm mm n).rainTargetUm.toNat ≤
      (s.regs.rained s.cfg.edgeToUm mm n).rainAccUm.toNat := by
    have hacc : (s.regs.rained s.cfg.edgeToUm mm n).rainAccUm.toNat =
        s.regs.rainAccUm.toNat + n * s.cfg.edgeToUm := Nat.mod_eq_of_lt hdepth
    rw [hacc, hn]
    exact htarget.trans_le (le_pulseCount hedge _)
  have hstart := run_rain_start hmm hidle hinited hfit hagenda
  have hloop := run_pulseTurns (s := s.rainAccepted mm) (ms := .fg :: ms) hmm rfl rfl n { s.regs with
    rainTargetUm := BitVec.ofNat 32 (s.regs.rainTargetUm.toNat + mm * 1000) } [] hfree hbelow hdepth hanswers
  have hend := step_inLoop_rn2_reached (s := s.rainAccepted mm) (ms := ms)
    (es := List.replicate n (pulseEntry s.cfg)) hmm rfl rfl hreached
  have hrun := (run_add hstart).trans ((run_add hloop).trans (run_one hend))
  rw [show 2 + (5 * n + 1) = 5 * n + 3 by omega] at hrun
  refine ⟨_, hrun, rfl, rfl, rfl, List.append_assoc .., ?_, rfl⟩
  simp [State.ended, State.rainAccepted, hanswers]

/-- Settles O23: one RAIN with nothing after it on the agenda. -/
theorem rainEmitsTheLeastNumberOfPulses : Obligations.RainEmitsTheLeastNumberOfPulses := by
  rintro mm n _ s rest hmm hidle hinited hfree hvalid rfl hn hfit hdepth hanswers hagenda
  obtain ⟨t, hrun, hrain⟩ := run_rain hmm hidle hinited hfree hvalid.edgeToUm.1 hfit hn hdepth hanswers hagenda
  exact ⟨t, hrun, hrain.regs, hrain.idle, hrain.answers, hrain.agenda, hrain.hist⟩

/-! ### RAIN: a list of commands -/

theorem countP_isPulse_pulses (c : Params) (n : Nat) :
    (List.replicate n (pulseEntry c)).countP Entry.isPulse = n := by
  rw [List.countP_replicate]
  rfl

theorem filter_not_isPulse_pulses (c : Params) (n : Nat) :
    (List.replicate n (pulseEntry c)).filter (fun e => !e.isPulse) = [] := by
  rw [List.filter_replicate]
  rfl

/-- Two spells of rain are one, with the operands and the pulses added (R124). -/
theorem Regs.rained_rained (r : Regs) (edge mm m k n : Nat) :
    (r.rained edge mm m).rained edge k n = r.rained edge (mm + k) (m + n) := by
  have htarget : BitVec.ofNat 32 ((BitVec.ofNat 32 (r.rainTargetUm.toNat + mm * 1000)).toNat + k * 1000) =
      BitVec.ofNat 32 (r.rainTargetUm.toNat + (mm + k) * 1000) := by
    rw [BitVec.ofNat_add, BitVec.ofNat_toNat, BitVec.setWidth_eq, ← BitVec.ofNat_add, Nat.add_mul, Nat.add_assoc]
  unfold Regs.rained
  rw [← Regs.pulsed_pulsed, ← htarget]
  rfl

theorem Regs.rained_zero (r : Regs) (edge : Nat) : r.rained edge 0 0 = r := by
  rw [Regs.rained, Regs.pulsed_zero, Nat.zero_mul, Nat.add_zero, BitVec.ofNat_toNat, BitVec.setWidth_eq]

/-- A list of RAIN commands in the prompt environment, from a depth at or above the target (R94, R124). -/
theorem run_promptRains (rest : List Answer) (mms : List Nat) : ∀ (n : Nat) (s : State), (∀ mm ∈ mms, mm < 2 ^ 16) →
    s.fg.pc = .idle → s.regs.inited = true → s.regs.rainInflight = false → 1 ≤ s.cfg.edgeToUm →
    s.regs.rainTargetUm.toNat ≤ s.regs.rainAccUm.toNat →
    n = pulseCount s.regs.rainAccUm.toNat (s.regs.rainTargetUm.toNat + mms.sum * 1000) s.cfg.edgeToUm →
    s.regs.rainAccUm.toNat + n * s.cfg.edgeToUm < 2 ^ 32 → s.answers = List.replicate n 0 ++ rest →
    s.agenda = promptRains s.cfg.edgeToUm s.regs.rainAccUm.toNat s.regs.rainTargetUm.toNat mms →
    ∃ (t : State) (es : List Entry), Host.Core.run Sys2Proof.core (5 * n + 3 * mms.length) s = .next t ∧
      t.hist = s.hist ++ es ∧ es.countP Entry.isPulse = n ∧
      es.filter (fun e => !e.isPulse) = mms.map (fun mm => Entry.rsp (commandWord (.rain mm)) 0x00) ∧
      t.regs = s.regs.rained s.cfg.edgeToUm mms.sum n ∧ t.fg.pc = .idle ∧ t.answers = rest ∧ t.agenda = [] := by
  induction mms with
  | nil =>
    intro n s _ hidle _ _ hedge hreached hn _ hanswers hagenda
    obtain rfl : n = 0 := hn.trans (pulseCount_of_le hedge hreached)
    exact ⟨s, [], rfl, (List.append_nil _).symm, rfl, rfl, (Regs.rained_zero _ _).symm, hidle, hanswers, hagenda⟩
  | cons mm mms ih =>
    intro n s hmms hidle hinited hfree hedge _ hn hdepth hanswers hagenda
    obtain ⟨hmm, hmms⟩ := List.forall_mem_cons.mp hmms
    obtain ⟨m, hm⟩ : ∃ m, m = pulseCount s.regs.rainAccUm.toNat (s.regs.rainTargetUm.toNat + mm * 1000)
      s.cfg.edgeToUm := ⟨_, rfl⟩
    obtain ⟨k, hk⟩ : ∃ k, k = pulseCount (s.regs.rainAccUm.toNat + m * s.cfg.edgeToUm)
      (s.regs.rainTargetUm.toNat + mm * 1000 + mms.sum * 1000) s.cfg.edgeToUm := ⟨_, rfl⟩
    have hlift := le_pulseCount hedge (acc := s.regs.rainAccUm.toNat) (s.regs.rainTargetUm.toNat + mm * 1000)
    rw [List.sum_cons, Nat.add_mul, ← Nat.add_assoc,
      pulseCount_add hedge (Nat.le_add_right (s.regs.rainTargetUm.toNat + mm * 1000) _), ← hm, ← hk] at hn
    rw [← hm] at hlift
    subst hn
    rw [Nat.add_mul, ← Nat.add_assoc] at hdepth
    rw [← List.replicate_append_replicate, List.append_assoc] at hanswers
    rw [promptRains, ← hm] at hagenda
    obtain ⟨u, hrun, hu⟩ := run_rain hmm hidle hinited hfree hedge (by omega) hm (by omega) hanswers hagenda
    have hacc : u.regs.rainAccUm.toNat = s.regs.rainAccUm.toNat + m * s.cfg.edgeToUm := by
      rw [hu.regs]
      exact Nat.mod_eq_of_lt (by omega)
    have htarget : u.regs.rainTargetUm.toNat = s.regs.rainTargetUm.toNat + mm * 1000 := by
      rw [hu.regs]
      exact Nat.mod_eq_of_lt (by omega)
    rw [← hacc, ← htarget, ← hu.cfg] at hk
    rw [← hacc, ← hu.cfg] at hdepth
    obtain ⟨t, es, hrest, hhist, hcount, hothers, hregs, hpc, hrests, hms⟩ := ih k u hmms hu.idle
      (by rw [hu.regs]; exact hinited) (by rw [hu.regs]; exact hfree) (by rw [hu.cfg]; exact hedge) (by omega)
      hk hdepth hu.answers (by rw [hu.agenda, hacc, htarget, hu.cfg])
    refine ⟨t, List.replicate m (pulseEntry s.cfg) ++ [.rsp (commandWord (.rain mm)) 0x00] ++ es, ?_, ?_, ?_, ?_, ?_,
      hpc, hrests, hms⟩
    · rw [show 5 * (m + k) + 3 * (mm :: mms).length = 5 * m + 3 + (5 * k + 3 * mms.length) by
        rw [List.length_cons]; omega]
      exact (run_add hrun).trans hrest
    · rw [hhist, hu.hist, List.append_assoc]
    · rw [List.countP_append, List.countP_append, countP_isPulse_pulses, hcount]
      rfl
    · rw [List.filter_append, List.filter_append, filter_not_isPulse_pulses, hothers]
      rfl
    · rw [hregs, hu.regs, hu.cfg, Regs.rained_rained, List.sum_cons]

/-- Settles O24: from both depths zero the depth is at the target. -/
theorem rainIsAdditive : Obligations.RainIsAdditive := by
  intro mms n s rest hmms hidle hinited hfree hacc htarget hvalid hn hdepth hanswers hagenda
  have hacc0 : s.regs.rainAccUm.toNat = 0 := by rw [hacc]; rfl
  have htarget0 : s.regs.rainTargetUm.toNat = 0 := by rw [htarget]; rfl
  obtain ⟨t, es, hrun, hhist, hcount, hothers, hregs, hpc, has, hms⟩ := run_promptRains rest mms n s hmms hidle hinited
    hfree hvalid.edgeToUm.1 (by omega) (by rw [hacc0, htarget0, Nat.zero_add]; exact hn) (by omega) hanswers
    (by rw [hacc0, htarget0]; exact hagenda)
  refine ⟨t, es, hrun, hhist, hcount, hothers, hregs.trans ?_, hpc, has, hms⟩
  simp only [Regs.rained, Regs.pulsed, hacc0, htarget0, Nat.zero_add]

end Sys2Proof.Machine
end

section
/-! PROOFS. The events: what SYNC, TICK and DONE do (O41 to O43), and that any two of them commute (O44). -/

namespace Sys2Proof.Machine

open Sys2Proof.Config

/-! ### What each event does -/

section EventEffects

variable {s : State}

theorem exec_sync_effective (h : s.regs.gateOpen = true) :
    exec .sync s = .next { s with regs := s.regs.takeEdge } :=
  if_pos h

theorem exec_sync_ineffective (h : s.regs.gateOpen = false) : exec .sync s = .next s :=
  if_neg (Bool.eq_false_iff.mp h)

theorem exec_tick_enabled (hen : s.regs.tickEn = true) (hfit : s.regs.elapsedMs.toNat + s.cfg.periodMs < 2 ^ 32) :
    exec .tick s = .next { s with regs := { s.regs with
      periodFlag := true, elapsedMs := BitVec.ofNat 32 (s.regs.elapsedMs.toNat + s.cfg.periodMs) } } :=
  (if_pos hen).trans (if_neg fun h => Nat.not_le.mpr hfit (of_decide_eq_true h))

theorem exec_tick_overflow (hen : s.regs.tickEn = true)
    (hsum : 2 ^ 32 ≤ s.regs.elapsedMs.toNat + s.cfg.periodMs) : exec .tick s = .fault .overflow :=
  (if_pos hen).trans (if_pos (decide_eq_true hsum))

theorem exec_tick_disabled (h : s.regs.tickEn = false) : exec .tick s = .next s :=
  if_neg (Bool.eq_false_iff.mp h)

theorem exec_done_inFlight (h : s.regs.rainInflight = true) :
    exec .done s = .next { s with regs := { s.regs with rainInflight := false } } :=
  if_pos h

theorem exec_done_noPulse (h : s.regs.rainInflight = false) : exec .done s = .next s :=
  if_neg (Bool.eq_false_iff.mp h)

end EventEffects

/-- Settles O41: the gate is open when the source is enabled and `armed` is 1, and closed when either is 0. -/
theorem syncActsOnlyWhileArmed : Obligations.SyncActsOnlyWhileArmed := fun _ =>
  ⟨fun hopen => exec_sync_effective (Bool.and_eq_true_iff.mpr hopen),
    fun hclosed => exec_sync_ineffective (Bool.and_eq_false_iff.mpr hclosed)⟩

/-- Settles O42. -/
theorem tickAdvancesTheClock : Obligations.TickAdvancesTheClock := fun _ =>
  ⟨exec_tick_enabled, exec_tick_overflow, exec_tick_disabled⟩

/-- Settles O43. -/
theorem doneCompletesThePulse : Obligations.DoneCompletesThePulse := fun _ =>
  ⟨exec_done_inFlight, exec_done_noPulse⟩

/-! ### The order of events -/

/-- The condition under which an event writes anything (R140, R143, R146). -/
def Regs.eventEffective (i : Instr) (r : Regs) : Bool :=
  match i with
  | .sync => r.gateOpen
  | .tick => r.tickEn
  | .done => r.rainInflight
  | _ => false

/-- What an effective event writes (R140, R143, R146). -/
def Regs.eventWrites (c : Params) (i : Instr) (r : Regs) : Regs :=
  match i with
  | .sync => r.takeEdge
  | .tick => { r with periodFlag := true, elapsedMs := BitVec.ofNat 32 (r.elapsedMs.toNat + c.periodMs) }
  | .done => { r with rainInflight := false }
  | _ => r

/-- The registers after an event, effective or not, that gives a next state. -/
def Regs.afterEvent (c : Params) (i : Instr) (r : Regs) : Regs :=
  if r.eventEffective i then r.eventWrites c i else r

/-- The event is no effective TICK whose sum does not fit (R143). -/
def Regs.eventFits (c : Params) (i : Instr) (r : Regs) : Prop :=
  i = .tick → r.tickEn = true → r.elapsedMs.toNat + c.periodMs < 2 ^ 32

section AfterEvent

variable {c : Params} {i j : Instr} {r : Regs} {s t : State}

theorem afterEvent_effective (h : r.eventEffective i = true) : r.afterEvent c i = r.eventWrites c i :=
  if_pos h

theorem afterEvent_ineffective (h : r.eventEffective i = false) : r.afterEvent c i = r :=
  if_neg (Bool.eq_false_iff.mp h)

/-- An event that fits writes its registers, and nothing else. -/
theorem exec_event_fits (hi : i.isCommand = false) (hfit : s.regs.eventFits s.cfg i) :
    exec i s = .next { s with regs := s.regs.afterEvent s.cfg i } := by
  cases h : s.regs.eventEffective i with
  | true =>
    rw [afterEvent_effective h]
    cases i with
    | sync => exact exec_sync_effective h
    | tick => exact exec_tick_enabled h (hfit rfl h)
    | done => exact exec_done_inFlight h
    | _ => cases hi
  | false =>
    rw [afterEvent_ineffective h]
    cases i with
    | sync => exact exec_sync_ineffective h
    | tick => exact exec_tick_disabled h
    | done => exact exec_done_noPulse h
    | _ => cases hi

/-- An event that gives a next state fits. -/
theorem eventFits_of_exec (h : exec i s = .next t) : s.regs.eventFits s.cfg i := by
  rintro rfl hen
  by_contra hsum
  rw [exec_tick_overflow hen (Nat.not_lt.mp hsum)] at h
  cases h

theorem exec_event_next_iff (hi : i.isCommand = false) :
    exec i s = .next t ↔ s.regs.eventFits s.cfg i ∧ t = { s with regs := s.regs.afterEvent s.cfg i } := by
  constructor
  · intro h
    have hfit := eventFits_of_exec h
    exact ⟨hfit, Host.Outcome.next.inj (h.symm.trans (exec_event_fits hi hfit))⟩
  · rintro ⟨hfit, rfl⟩
    exact exec_event_fits hi hfit

/-- Only TICK writes what a TICK's sum and condition are read from (R29). -/
theorem afterEvent_clock (hj : j ≠ .tick) :
    (r.afterEvent c j).tickEn = r.tickEn ∧ (r.afterEvent c j).elapsedMs = r.elapsedMs := by
  unfold Regs.afterEvent Regs.eventWrites
  split
  · split
    · exact ⟨rfl, rfl⟩
    · exact absurd rfl hj
    · exact ⟨rfl, rfl⟩
    · exact ⟨rfl, rfl⟩
  · exact ⟨rfl, rfl⟩

/-- Whether an event fits does not depend on another event before it. -/
theorem eventFits_afterEvent (hne : i ≠ j) : (r.afterEvent c j).eventFits c i ↔ r.eventFits c i := by
  refine forall_congr' fun hi => ?_
  obtain ⟨hen, helapsed⟩ := afterEvent_clock (c := c) (r := r) (hi ▸ hne.symm)
  rw [hen, helapsed]

/-- Two events commute when neither writes what the other's condition reads, and their writes commute. -/
theorem afterEvent_comm_of_disjoint
    (hi : ∀ r : Regs, (r.eventWrites c j).eventEffective i = r.eventEffective i)
    (hj : ∀ r : Regs, (r.eventWrites c i).eventEffective j = r.eventEffective j)
    (hwrites : ∀ r : Regs, (r.eventWrites c j).eventWrites c i = (r.eventWrites c i).eventWrites c j) :
    (r.afterEvent c j).afterEvent c i = (r.afterEvent c i).afterEvent c j := by
  cases hei : r.eventEffective i with
  | false =>
    rw [afterEvent_ineffective hei]
    apply afterEvent_ineffective
    cases hej : r.eventEffective j with
    | false => rw [afterEvent_ineffective hej, hei]
    | true => rw [afterEvent_effective hej, hi, hei]
  | true =>
    cases hej : r.eventEffective j with
    | false => rw [afterEvent_ineffective hej, afterEvent_effective hei,
        afterEvent_ineffective ((hj r).trans hej)]
    | true => rw [afterEvent_effective hej, afterEvent_effective hei, afterEvent_effective ((hi r).trans hei),
        afterEvent_effective ((hj r).trans hej), hwrites]

/-- SYNC, TICK and DONE read and write registers of their own (R148). -/
theorem afterEvent_comm (hi : i.isCommand = false) (hj : j.isCommand = false) :
    (r.afterEvent c j).afterEvent c i = (r.afterEvent c i).afterEvent c j := by
  have hst : (r.afterEvent c .tick).afterEvent c .sync = (r.afterEvent c .sync).afterEvent c .tick :=
    afterEvent_comm_of_disjoint (fun _ => rfl) (fun _ => rfl) (fun _ => rfl)
  have hsd : (r.afterEvent c .done).afterEvent c .sync = (r.afterEvent c .sync).afterEvent c .done :=
    afterEvent_comm_of_disjoint (fun _ => rfl) (fun _ => rfl) (fun _ => rfl)
  have htd : (r.afterEvent c .done).afterEvent c .tick = (r.afterEvent c .tick).afterEvent c .done :=
    afterEvent_comm_of_disjoint (fun _ => rfl) (fun _ => rfl) (fun _ => rfl)
  cases i with
  | sync =>
    cases j with
    | sync => rfl
    | tick => exact hst
    | done => exact hsd
    | _ => cases hj
  | tick =>
    cases j with
    | sync => exact hst.symm
    | tick => rfl
    | done => exact htd
    | _ => cases hj
  | done =>
    cases j with
    | sync => exact hsd.symm
    | tick => exact htd.symm
    | done => rfl
    | _ => cases hj
  | _ => cases hi

end AfterEvent

/-- Settles O44: in the other order both events fit as well, and their writes come to the same registers. -/
theorem eventsCommute : Obligations.EventsCommute := by
  intro i j s t u hi hj hne ht hu
  obtain ⟨hfiti, rfl⟩ := (exec_event_next_iff hi).mp ht
  obtain ⟨hfitj, rfl⟩ := (exec_event_next_iff hj).mp hu
  refine ⟨_, exec_event_fits hj ((eventFits_afterEvent hne.symm).mp hfitj), ?_⟩
  rw [exec_event_fits hi ((eventFits_afterEvent hne).mpr hfiti)]
  exact congrArg (fun r => Host.Outcome.next { s with regs := r }) (afterEvent_comm hi hj)

end Sys2Proof.Machine
end

section
/-! PROOFS. PROC's own micro-steps EV1 to EV9 (O26 to O30, O34, O35), and what iterating them gives: the ramp's triangle
(O36) and the peaks as counts of the edges (O37). -/

namespace Sys2Proof.Machine

open Sys2Proof.Config

/-! ### PROC's own micro-steps -/

/-- At PROC's own labels, PROC's meaning is the micro-step of that label (R155). -/
theorem exec_proc_evaluate {s : State} {l : Label} (hl : l.inEvaluate = true) (h : s.StandsAt .proc l .host) :
    exec .proc s = microAt s :=
  exec_standing h (by simp [runsAt, hl])

/-- A pass that ends here with `OK` (R40, R90). -/
theorem respond_ok (s : State) : s.respond .ok = s.ended [] 0x00 := respond_eq_ended s .ok

/-- Settles O26: `first_sync_seen` is the condition of EV1. -/
theorem evaluateStopsBeforeTheFirstEdge : Obligations.EvaluateStopsBeforeTheFirstEdge := by
  intro s h
  rw [exec_proc_evaluate rfl h, microAt, h.1]
  constructor <;> intro hseen
  · simp [microEV1, hseen, respond_ok]
  · simp [microEV1, hseen, goto_eq_advanced]

/-- A counter that wraps below `2 ^ 16` fits its register (R21 to R25). -/
theorem toNat_ofNat_succ_mod {n : Nat} (hpos : 0 < n) (hn : n ≤ 2 ^ 16) (k : Nat) :
    (BitVec.ofNat 16 ((k + 1) % n)).toNat = (k + 1) % n :=
  Nat.mod_eq_of_lt ((Nat.mod_lt _ hpos).trans_le hn)

/-- An accepted edge advances each peak modulo its own number of values (R157). -/
theorem acceptEdge_peaks {c : Params} (hc : c.Valid) (r : Regs) :
    (r.acceptEdge c).peakSpeed.toNat = (r.peakSpeed.toNat + 1) % (c.peakSpeedMax + 1) ∧
      (r.acceptEdge c).peakDirectionIndex.toNat = (r.peakDirectionIndex.toNat + 1) % c.nDir ∧
      (r.acceptEdge c).peakRainfall.toNat = (r.peakRainfall.toNat + 1) % (c.peakRainMax + 1) := by
  have hspeed := hc.peakSpeedMax
  obtain ⟨hpos, hdir⟩ := hc.nDir
  have hrain := hc.peakRainMax
  exact ⟨toNat_ofNat_succ_mod (by omega) (by omega) _, toNat_ofNat_succ_mod hpos hdir.le _,
    toNat_ofNat_succ_mod (by omega) (by omega) _⟩

/-- Settles O27: EV2's writes are `Regs.acceptEdge`, whose peaks are the three that the statement asks for. -/
theorem evaluateAcceptsAPendingEdge : Obligations.EvaluateAcceptsAPendingEdge := by
  intro s h hvalid
  rw [exec_proc_evaluate rfl h, microAt, h.1]
  refine ⟨fun hpending => ?_, fun hpending => ?_⟩
  · obtain ⟨hspeed, hdir, hrain⟩ := acceptEdge_peaks hvalid s.regs
    refine ⟨_, _, _, hspeed, hdir, hrain, ?_⟩
    simp only [microEV2, hpending, if_true, goto_eq_advanced]
    rfl
  · simp [microEV2, hpending, goto_eq_advanced]

/-- Settles O28: past the guard EV3 writes `armed`, and the statement's `or` is 1; before it the `or` is `armed`. -/
theorem evaluateRearmsAfterTheGuard : Obligations.EvaluateRearmsAfterTheGuard := by
  intro s h
  rw [exec_proc_evaluate rfl h, microAt, h.1]
  by_cases hguard : s.cfg.debounceMs < s.regs.elapsedMs.toNat
  · simp [microEV3, Regs.guardPassed, hguard, goto_eq_advanced]
  · simp [microEV3, Regs.guardPassed, hguard, goto_eq_advanced]

theorem ofNat_toNat_succ (x : Half) : BitVec.ofNat 16 (x.toNat + 1) = x + 1 := by
  bv_omega

theorem ofNat_toNat_pred {x : Half} (h : x ≠ 0) : BitVec.ofNat 16 (x.toNat - 1) = x - 1 := by
  bv_omega

/-- The ramp step in the registers' own arithmetic: no arm leaves the 16 bits (R160). -/
theorem rampStep_eq (r : Regs) : r.rampStep =
    if r.peakSpeed = 0 then r
    else if r.peakSpeed ≤ r.currentSpeed then { r with currentSpeed := r.peakSpeed - 1, rampDirection := .down }
    else if r.currentSpeed = 0 then { r with currentSpeed := 1, rampDirection := .up }
    else if r.rampDirection = .up then { r with currentSpeed := r.currentSpeed + 1 }
    else { r with currentSpeed := r.currentSpeed - 1 } := by
  have hzero (x : Half) : x.toNat = 0 ↔ x = 0 := by bv_omega
  simp only [Regs.rampStep, rampNext, hzero, BitVec.le_def]
  split
  · simp
  split
  · simp only [ofNat_toNat_pred ‹r.peakSpeed ≠ 0›]
  split
  · rfl
  cases hdir : r.rampDirection with
  | up => simp only [ofNat_toNat_succ, if_true, ← hdir]
  | down =>
    rw [if_neg nofun]
    simp only [ofNat_toNat_pred ‹r.currentSpeed ≠ 0›, ← hdir]

/-- Settles O29: without a period EV4 ends the pass; with one its writes are the ramp step's. -/
theorem evaluateStepsTheRamp : Obligations.EvaluateStepsTheRamp := by
  intro s h
  rw [exec_proc_evaluate rfl h, microAt, h.1]
  constructor <;> intro hperiod
  · simp [microEV4, hperiod, respond_ok]
  · simp only [microEV4, hperiod, if_true, goto_eq_advanced, rampStep_eq]

/-- Settles O30: each of the three labels is a call. -/
theorem evaluateCallsTheEngine : Obligations.EvaluateCallsTheEngine := by
  intro s
  refine ⟨fun h => ?_, fun h hindex => ?_, fun h => ?_⟩ <;> rw [exec_proc_evaluate rfl h, microAt, h.1]
  · rfl
  · rw [microEV6, State.tableBearing, romRead, List.getD_eq_getElem _ _ hindex]
    rfl
  · rfl

/-- EV7's condition is the statement's conjunction (R163). -/
theorem rainDue_iff (r : Regs) (c : Params) :
    r.rainDue c = true ↔ c.rainDelayMs < r.elapsedMs.toNat ∧ r.currentRainfall.toNat < r.peakRainfall.toNat := by
  simp [Regs.rainDue]

/-- Settles O34: EV7 branches on `rainDue_iff`'s condition. -/
theorem rainWaitsForTheDelay : Obligations.RainWaitsForTheDelay := by
  intro s h
  rw [exec_proc_evaluate rfl h, microAt, h.1]
  simp only [microEV7, rainDue_iff, goto_eq_advanced, respond_ok]
  split <;> rfl

/-- Settles O35: EV9 adds 1 in 16 bits and responds with `OK`. -/
theorem evaluateCountsTheMillimetre : Obligations.EvaluateCountsTheMillimetre := by
  intro s h
  rw [exec_proc_evaluate rfl h, microAt, h.1]
  exact congrArg _ (respond_ok _)

/-! ### The ramp -/

/-- The ramp at phase `m` of its period `2 * p`: the triangle's value, and `UP` on the way to the peak (R167). -/
def rampPhase (p m : Nat) : Nat × RampDir :=
  (if m ≤ p then m else 2 * p - m, if 1 ≤ m ∧ m ≤ p then .up else .down)

theorem rampPhase_up_iff (p m : Nat) : (rampPhase p m).2 = .up ↔ 1 ≤ m ∧ m ≤ p := by
  simp [rampPhase]

theorem rampPhase_zero (p : Nat) : rampPhase p 0 = (0, .down) := rfl

theorem rampPhase_rising {p m : Nat} (hpos : 1 ≤ m) (hm : m ≤ p) : rampPhase p m = (m, .up) := by
  simp [rampPhase, hpos, hm]

theorem rampPhase_falling {p m : Nat} (hm : p < m) : rampPhase p m = (2 * p - m, .down) := by
  simp [rampPhase, Nat.not_le.mpr hm]

/-- From speed 0 the ramp goes to 1 and up (R160). -/
theorem rampNext_from_zero {p : Nat} (hp : 1 ≤ p) (d : RampDir) : rampNext p 0 d = (1, .up) := by
  simp [rampNext, Nat.one_le_iff_ne_zero.mp hp]

/-- At the peak it turns (R160). -/
theorem rampNext_at_peak {p : Nat} (hp : 1 ≤ p) (d : RampDir) : rampNext p p d = (p - 1, .down) := by
  simp [rampNext, Nat.one_le_iff_ne_zero.mp hp]

/-- Between 0 and the peak it follows the flag (R160). -/
theorem rampNext_between {p v : Nat} (hpos : 1 ≤ v) (hv : v < p) :
    rampNext p v .up = (v + 1, .up) ∧ rampNext p v .down = (v - 1, .down) := by
  have hp : p ≠ 0 := by omega
  simp [rampNext, hp, Nat.not_le.mpr hv, Nat.one_le_iff_ne_zero.mp hpos]

theorem succ_mod_period {p : Nat} (hp : 1 ≤ p) (k : Nat) :
    (k + 1) % (2 * p) = if k % (2 * p) + 1 = 2 * p then 0 else k % (2 * p) + 1 := by
  have hlt : k % (2 * p) < 2 * p := Nat.mod_lt k (by omega)
  rw [← Nat.mod_add_mod]
  by_cases hlast : k % (2 * p) + 1 = 2 * p
  · rw [if_pos hlast, hlast, Nat.mod_self]
  · rw [if_neg hlast, Nat.mod_eq_of_lt (by omega)]

/-- One ramp step goes to the next phase; at phase 0 the flag does not matter (R160, R167). -/
theorem rampNext_phase {p m : Nat} (hm : m < 2 * p) {d : RampDir} (hd : m ≠ 0 → d = (rampPhase p m).2) :
    rampNext p (rampPhase p m).1 d = rampPhase p (if m + 1 = 2 * p then 0 else m + 1) := by
  have hp : 1 ≤ p := by omega
  obtain rfl | hpos := Nat.eq_zero_or_pos m
  · rw [rampPhase_zero, rampNext_from_zero hp, if_neg (by omega), rampPhase_rising le_rfl hp]
  rw [hd (by omega)]
  obtain hrising | rfl | hfalling := lt_trichotomy m p
  · rw [rampPhase_rising hpos hrising.le, (rampNext_between hpos hrising).1, if_neg (by omega),
      rampPhase_rising (by omega) hrising]
  · rw [rampPhase_rising hp le_rfl, rampNext_at_peak hp]
    split
    · rw [rampPhase_zero, show m - 1 = 0 by omega]
    · rw [rampPhase_falling (Nat.lt_succ_self m), show 2 * m - (m + 1) = m - 1 by omega]
  · rw [rampPhase_falling hfalling, (rampNext_between (by omega) (by omega)).2]
    split
    · rw [rampPhase_zero, show 2 * p - m - 1 = 0 by omega]
    · rw [rampPhase_falling (by omega), Nat.sub_sub]

/-- After `k` steps the ramp stands at phase `k % (2 * p)`, but for the flag before the first
step. -/
theorem rampAfter_phase {p : Nat} (hp : 1 ≤ p) : ∀ k,
    (rampAfter p k).1 = (rampPhase p (k % (2 * p))).1 ∧
      (1 ≤ k → (rampAfter p k).2 = (rampPhase p (k % (2 * p))).2)
  | 0 => by simp [rampAfter, rampPhase]
  | k + 1 => by
    obtain ⟨hvalue, hflag⟩ := rampAfter_phase hp k
    have hmoved : k % (2 * p) ≠ 0 → 1 ≤ k := by
      rintro hk
      by_contra hzero
      simp [Nat.lt_one_iff.mp (Nat.not_le.mp hzero)] at hk
    have hnext : rampAfter p (k + 1) = rampPhase p ((k + 1) % (2 * p)) := by
      rw [rampAfter, hvalue, succ_mod_period hp]
      exact rampNext_phase (Nat.mod_lt k (by omega)) fun hk => hflag (hmoved hk)
    rw [hnext]
    exact ⟨rfl, fun _ => rfl⟩

/-- Settles O36: the value and the flag are those of phase `k % (2 * p)`, whose value is the triangle's. -/
theorem rampIsATriangle : Obligations.RampIsATriangle := by
  intro p k hp
  obtain ⟨hvalue, hflag⟩ := rampAfter_phase hp k
  refine ⟨hvalue, fun hk => ?_⟩
  rw [hflag hk]
  exact rampPhase_up_iff _ _

/-! ### The peaks -/

/-- Settles O37: each accepted edge adds one to the count that the peaks are. -/
theorem peaksCountTheEdges : Obligations.PeaksCountTheEdges := by
  intro c j hc
  induction j with
  | zero => simp [edgesAccepted, Regs.reset]
  | succ j ih =>
    obtain ⟨ihspeed, ihdir, ihrain⟩ := ih
    obtain ⟨hspeed, hdir, hrain⟩ := acceptEdge_peaks hc { edgesAccepted c (Regs.reset c) j with pending := true }
    refine ⟨?_, ?_, ?_⟩ <;> rw [edgesAccepted]
    · rw [hspeed, ihspeed, Nat.mod_add_mod]
    · rw [hdir, ihdir, Nat.mod_add_mod]
    · rw [hrain, ihrain, Nat.mod_add_mod]

end Sys2Proof.Machine
end

section
/-! PROOFS. What PROC keeps over steps and runs: before the first synchronization it does nothing (O38), in clean runs a
pending edge keeps the gate closed (O40), and it never reports a range error (O52). -/

namespace Sys2Proof.Machine

open Sys2Proof.Config

/-! ### Before the first synchronization -/

/-- The moves of R172: TICK events, turns of FG and offers of PROC. -/
def Move.ticksOrProc (m : Move) : Prop := m = .events 0b010 ∨ m = .fg ∨ m = .offer (commandWord .proc)

/-- The states of R172's runs: no synchronization yet, FG idle or at EV1, and nothing but R172's moves to come. -/
structure State.BeforeFirstEdge (s : State) : Prop where
  inited : s.regs.inited = true
  unseen : s.regs.firstSyncSeen = false
  fg : s.fg.pc = .idle ∨ s.StandsAt .proc .ev1 .host
  agenda : ∀ m ∈ s.agenda, m.ticksOrProc

/-- From `s` to `t` the clock and the period flag may have changed, and PROC may have answered `OK`: nothing else has
changed in the registers and in the history (R172). -/
structure State.OnlyTimePasses (s t : State) : Prop where
  regs : t.regs = { s.regs with elapsedMs := t.regs.elapsedMs, periodFlag := t.regs.periodFlag }
  hist : ∃ n, t.hist = s.hist ++ List.replicate n (.rsp (commandWord .proc) 0x00)

theorem State.OnlyTimePasses.of_eq {s t : State} (hregs : t.regs = s.regs) (hhist : t.hist = s.hist) :
    s.OnlyTimePasses t :=
  ⟨by rw [hregs], 0, by rw [hhist, List.replicate_zero, List.append_nil]⟩

theorem State.OnlyTimePasses.trans {s t u : State} (h : s.OnlyTimePasses t) (h' : t.OnlyTimePasses u) :
    s.OnlyTimePasses u := by
  obtain ⟨hregs, n, hhist⟩ := h
  obtain ⟨hregs', n', hhist'⟩ := h'
  refine ⟨?_, n + n', ?_⟩
  · rw [hregs', hregs]
  · rw [hhist', hhist, List.append_assoc, List.replicate_append_replicate]

section BeforeFirstEdge

variable {s t : State}

theorem State.BeforeFirstEdge.of_agenda_subset (h : s.BeforeFirstEdge) {agenda : List Move}
    (hsub : agenda ⊆ s.agenda) : State.BeforeFirstEdge { s with agenda := agenda } :=
  ⟨h.inited, h.unseen, h.fg, fun m hm => h.agenda m (hsub hm)⟩

/-- With the registers but for clock and period flag as they were, all depends on where FG stands. -/
theorem State.BeforeFirstEdge.of_onlyTimePasses (h : s.BeforeFirstEdge) (ht : s.OnlyTimePasses t)
    (hfg : t.fg.pc = .idle ∨ t.StandsAt .proc .ev1 .host) (hagenda : t.agenda = s.agenda) : t.BeforeFirstEdge := by
  refine ⟨?_, ?_, hfg, hagenda ▸ h.agenda⟩
  · rw [ht.regs]
    exact h.inited
  · rw [ht.regs]
    exact h.unseen

/-- PROC is accepted by an idle FG, and its EV1 ends the pass (R156, R180). -/
theorem State.BeforeFirstEdge.exec_proc (h : s.BeforeFirstEdge) (hx : exec .proc s = .next t) :
    t.BeforeFirstEdge ∧ s.OnlyTimePasses t := by
  obtain hidle | hev1 := h.fg
  · have ht := Host.Outcome.next.inj (hx.symm.trans (acceptanceStartsTheOperation .proc s rfl rfl hidle h.inited))
    have hpass : s.OnlyTimePasses t := .of_eq (by rw [ht]) (by rw [ht])
    exact ⟨h.of_onlyTimePasses hpass (.inr (by rw [ht]; exact ⟨rfl, rfl, rfl⟩)) (by rw [ht]), hpass⟩
  · cases hx.symm.trans ((evaluateStopsBeforeTheFirstEdge s hev1).1 h.unseen)
    have hpass : s.OnlyTimePasses (s.ended [] 0x00) :=
      ⟨rfl, 1, by obtain ⟨-, -, hcmd⟩ := hev1; simp [State.ended, hcmd]⟩
    exact ⟨h.of_onlyTimePasses hpass (.inl rfl) rfl, hpass⟩

/-- A TICK writes the clock and the period flag, or nothing (R143). -/
theorem State.BeforeFirstEdge.exec_tick (h : s.BeforeFirstEdge) (hx : exec .tick s = .next t) :
    t.BeforeFirstEdge ∧ s.OnlyTimePasses t := by
  obtain ⟨-, rfl⟩ := (exec_event_next_iff rfl).mp hx
  have hregs : s.OnlyTimePasses { s with regs := s.regs.afterEvent s.cfg .tick } := by
    refine ⟨?_, 0, (List.append_nil _).symm⟩
    cases htick : s.regs.eventEffective .tick with
    | true => rw [afterEvent_effective htick]; rfl
    | false => rw [afterEvent_ineffective htick]
  exact ⟨h.of_onlyTimePasses hregs h.fg rfl, hregs⟩

/-- FG's turn is nothing when it is idle, and PROC at EV1 (R40). -/
theorem State.BeforeFirstEdge.foregroundTurn (h : s.BeforeFirstEdge) :
    s.foregroundTurn = .stay s ∨ s.foregroundTurn = .run .proc s := by
  obtain hidle | ⟨hpc, -, hcmd⟩ := h.fg
  · exact .inl (if_pos hidle)
  · exact .inr (foregroundTurn_busy (by rw [hpc]; nofun) (by rw [hcmd]; rfl))

/-- The next transition is nothing, a TICK or PROC's. -/
theorem State.BeforeFirstEdge.nextTask (h : s.BeforeFirstEdge) : ∃ agenda ⊆ s.agenda,
    s.nextTask = .stay { s with agenda := agenda } ∨ s.nextTask = .run .tick { s with agenda := agenda } ∨
      s.nextTask = .run .proc { s with agenda := agenda } := by
  unfold State.nextTask
  split
  case h_1 => exact ⟨s.agenda, List.Subset.refl _, h.foregroundTurn.imp_right .inr⟩
  all_goals
    rename_i rest ha
    have hrest : rest ⊆ s.agenda := ha ▸ List.subset_cons_self _ _
    have hturn := (h.of_agenda_subset hrest).foregroundTurn
    have hmove := h.agenda _ (ha ▸ List.mem_cons_self)
  case h_2 => exact ⟨rest, hrest, hturn.imp_right .inr⟩
  case h_3 =>
    obtain hm | hm | hm := hmove <;> cases hm
    split
    · exact ⟨rest, hrest, .inr (.inr rfl)⟩
    · exact ⟨s.agenda, List.Subset.refl _, h.foregroundTurn.imp_right .inr⟩
  case h_4 =>
    obtain hm | hm | hm := hmove <;> cases hm
    exact ⟨rest, hrest, .inr (.inl rfl)⟩
  case h_5 | h_6 => obtain hm | hm | hm := hmove <;> cases hm

/-- Every step stays before the first edge, and lets only time pass (R172). -/
theorem State.BeforeFirstEdge.step (h : s.BeforeFirstEdge) (hstep : Machine.step s = .next t) :
    t.BeforeFirstEdge ∧ s.OnlyTimePasses t := by
  obtain ⟨agenda, hsub, htask⟩ := h.nextTask
  have h' := h.of_agenda_subset hsub
  obtain htask | htask | htask := htask
  · cases (step_of_nextTask_stay htask).symm.trans hstep
    exact ⟨h', .of_eq rfl rfl⟩
  · obtain ⟨ht, hpass⟩ := h'.exec_tick ((step_of_nextTask_run htask).symm.trans hstep)
    exact ⟨ht, hpass.regs, hpass.hist⟩
  · obtain ⟨ht, hpass⟩ := h'.exec_proc ((step_of_nextTask_run htask).symm.trans hstep)
    exact ⟨ht, hpass.regs, hpass.hist⟩

/-- So does every run, by induction on its steps. -/
theorem State.BeforeFirstEdge.run : ∀ {k : Nat} {s : State}, s.BeforeFirstEdge →
    Host.Core.run Sys2Proof.core k s = .next t → s.OnlyTimePasses t
  | 0, _, _, hrun => by
    cases hrun
    exact .of_eq rfl rfl
  | k + 1, s, h, hrun => by
    cases hs : Machine.step s with
    | next u =>
      obtain ⟨hu, hpass⟩ := h.step hs
      exact hpass.trans (hu.run ((run_succ hs k).symm.trans hrun))
    | fault f => simp [Host.Core.run, Sys2Proof.core, hs] at hrun
    | refused r => simp [Host.Core.run, Sys2Proof.core, hs] at hrun

end BeforeFirstEdge

/-- Settles O38: each step keeps the run before the first edge, and lets only time pass. -/
theorem procIsANoOpBeforeTheFirstEdge : Obligations.ProcIsANoOpBeforeTheFirstEdge := by
  intro k s t hidle hinited hunseen hagenda hrun
  have h : s.BeforeFirstEdge := ⟨hinited, hunseen, .inl hidle, hagenda⟩
  obtain ⟨hregs, hhist⟩ := h.run hrun
  exact ⟨hregs, hhist⟩

/-! ### Clean runs -/

/-- The invariant of clean runs (R171): a pending edge keeps the gate closed, and EV3 never sees one. -/
structure State.GateClosed (s : State) : Prop where
  pendingCloses : s.regs.pending = true → s.regs.armed = false
  atEV3 : s.fg.pc = .ev3 → s.regs.pending = false

theorem State.GateClosed.of_not_pending {t : State} (h : t.regs.pending = false) : t.GateClosed :=
  ⟨fun hp => absurd hp (by simp [h]), fun _ => h⟩

/-- A transition that writes neither flag keeps the invariant, unless it takes FG to EV3. -/
theorem State.GateClosed.of_same {s t : State} (h : s.GateClosed)
    (hsame : t.regs.pending = s.regs.pending ∧ t.regs.armed = s.regs.armed)
    (hpc : t.fg.pc = .ev3 → s.fg.pc = .ev3) : t.GateClosed := by
  obtain ⟨hpending, harmed⟩ := hsame
  refine ⟨fun hp => ?_, fun hp => ?_⟩
  · rw [harmed]
    exact h.pendingCloses (hpending ▸ hp)
  · rw [hpending]
    exact h.atEV3 (hpc hp)

/-- No operation that PROC calls returns to EV3 (R161, R162, R164). -/
theorem returnTo_gateClosed {s u : State} (h : s.GateClosed) {cont : Label} {st : Status}
    (hcont : .ev3 ≠ cont := by nofun)
    (hsame : u.regs.pending = s.regs.pending ∧ u.regs.armed = s.regs.armed := by exact ⟨rfl, rfl⟩) :
    (u.returnTo cont st).GateClosed :=
  h.of_same (by rwa [returnTo_regs]) fun hp => absurd hp (returnTo_pc_ne (l := .ev3) nofun hcont u st)

/-- Of the micro-steps EV2, EV3 and IN1 alone write `pending` or `armed`: EV2 and IN1 leave no edge pending, or write
neither, and EV3 arms the gate with none pending (R157, R158, R181). -/
theorem microAt_gateClosed {s t : State} (h : microAt s = .next t) (hg : s.GateClosed) : t.GateClosed := by
  unfold microAt at h
  cases hl : s.fg.pc with rw [hl] at h
  | idle =>
    cases h
    exact hg
  | ev2 =>
    cases h
    refine .of_not_pending ?_
    rw [goto_regs]
    dsimp only
    split
    · rfl
    · exact Bool.eq_false_iff.mpr ‹_›
  | ev3 =>
    cases h
    refine .of_not_pending ?_
    rw [goto_regs]
    dsimp only
    split <;> exact hg.atEV3 hl
  | in1 =>
    simp only [microIN1] at h
    split at h <;> cases h
    · exact hg.of_same ⟨rfl, rfl⟩ nofun
    · exact .of_not_pending rfl
  | ev5 | ev6 | ev8 | ev9 | rr1 | ak1 =>
    cases h
    exact hg.of_same ⟨rfl, rfl⟩ nofun
  | ev1 | ev4 | ev7 | de1 | st1 | st2 | so1 | so2 | rn1 | rn4 =>
    simp only [microEV1, microEV4, microEV7, microDE1, microST1, microST2, microSO1, microSO2, microRN1,
      microRN4] at h
    split at h <;> cases h <;> exact hg.of_same ⟨rfl, rfl⟩ nofun
  | rn5 =>
    simp only [microRN5] at h
    split at h <;> cases h
    · exact hg
    · exact hg.of_same ⟨rfl, rfl⟩ nofun
  | rn2 =>
    simp only [microRN2] at h
    split at h <;> cases h
    · exact hg.of_same ⟨rfl, rfl⟩ nofun
    · exact returnTo_gateClosed hg
  | rn3 =>
    simp only [microRN3] at h
    split at h <;> cases h
    · exact returnTo_gateClosed hg
    · exact hg.of_same ⟨rfl, rfl⟩ nofun
  | sp1 | ds1 =>
    simp only [microSP1, microDS1] at h
    split at h <;> cases h <;> exact returnTo_gateClosed hg
  | dr0 =>
    simp only [microDR0] at h
    split at h
    · cases h
      exact returnTo_gateClosed hg
    · split at h <;> cases h <;> exact hg.of_same ⟨rfl, rfl⟩ nofun
  | db =>
    simp only [microDB] at h
    split at h
    · cases h
      exact returnTo_gateClosed hg
    · split at h <;> cases h
      · exact returnTo_gateClosed hg
      · exact hg.of_same ⟨rfl, rfl⟩ nofun

/-- Acceptance writes no register, and EV3 is no command's first micro-step (R40, R86). -/
theorem accept_gateClosed {s : State} (h : s.GateClosed) (i : Instr) : (s.accept i (firstLabel i)).GateClosed := by
  obtain ⟨-, he⟩ | ⟨-, he⟩ := accept_cases s i (firstLabel i) <;> rw [he]
  · exact h.of_same ⟨rfl, rfl⟩ (by cases i <;> nofun)
  · exact h.of_same ⟨rfl, rfl⟩ nofun

theorem exec_command_gateClosed {i : Instr} {s t : State} (hc : i.isCommand = true) (h : exec i s = .next t)
    (hg : s.GateClosed) : t.GateClosed := by
  obtain ⟨-, ht⟩ | ⟨-, ht⟩ | ⟨-, -, hm⟩ := exec_command_cases hc h
  · exact ht ▸ accept_gateClosed hg i
  · exact ht ▸ hg
  · exact microAt_gateClosed hm hg

/-- An effective SYNC closes the gate, so away from EV3 it keeps the invariant; no other event writes either flag
(R140, R143, R146). -/
theorem exec_event_gateClosed {i : Instr} {s t : State} (hi : i.isCommand = false) (h : exec i s = .next t)
    (hclean : s.fg.pc = .ev3 → i = .sync → s.regs.gateOpen = false) (hg : s.GateClosed) : t.GateClosed := by
  obtain ⟨-, rfl⟩ := (exec_event_next_iff hi).mp h
  cases heff : s.regs.eventEffective i with
  | false =>
    rw [afterEvent_ineffective heff]
    exact hg
  | true =>
    rw [afterEvent_effective heff]
    cases i with
    | sync => exact ⟨fun _ => rfl, fun hp => absurd heff (Bool.eq_false_iff.mp (hclean hp rfl))⟩
    | tick | done => exact hg.of_same ⟨rfl, rfl⟩ id
    | _ => cases hi

/-- A transition that runs no operation leaves the registers alone and FG where it is, or at `IDLE`; or it is a reset
cycle (R83, R87, R97). -/
theorem nextTask_stay_cases {s u : State} (h : s.nextTask = .stay u) :
    (u.regs = s.regs ∧ (u.fg.pc = s.fg.pc ∨ u.fg.pc = .idle)) ∨ u.regs = Regs.reset s.cfg := by
  have hturn {a : List Move} (h : State.foregroundTurn { s with agenda := a } = .stay u) :
      u.regs = s.regs ∧ (u.fg.pc = s.fg.pc ∨ u.fg.pc = .idle) := by
    obtain ⟨-, _, -, he⟩ | he := foregroundTurn_cases { s with agenda := a } <;> rw [he] at h <;> cases h
    exact ⟨rfl, .inl rfl⟩
  unfold State.nextTask at h
  split at h
  · exact .inl (hturn (a := s.agenda) h)
  · exact .inl (hturn h)
  · next w rest _ =>
    split at h
    · obtain ⟨_, -, he⟩ | ⟨-, he⟩ := offered_cases { s with agenda := rest } w <;> rw [he] at h <;> cases h
      exact .inl ⟨rfl, .inr rfl⟩
    · exact .inl (hturn (a := s.agenda) h)
  · split at h <;> cases h
    exact .inl ⟨rfl, .inl rfl⟩
  · cases h
    exact .inl ⟨rfl, .inl rfl⟩
  · next p rest _ =>
    cases h
    cases hp : p.rstN with
    | true => exact .inl ⟨clockCycle_regs hp, .inl (by simp [State.clockCycle, hp])⟩
    | false => exact .inr (clockCycle_reset hp).2

/-- Settles O40: every kind of transition keeps the invariant of clean runs. -/
theorem gateStaysClosedInCleanRuns : Obligations.GateStaysClosedInCleanRuns := by
  intro s t hpending hev3 hclean hstep
  have hg : s.GateClosed := ⟨hpending, hev3⟩
  suffices ht : t.GateClosed from ⟨ht.pendingCloses, ht.atEV3⟩
  cases htask : s.nextTask with
  | stay u =>
    cases (step_of_nextTask_stay htask).symm.trans hstep
    obtain ⟨hregs, hpc⟩ | hregs := nextTask_stay_cases htask
    · exact hg.of_same (by simp [hregs]) fun hp => hpc.resolve_right (by rw [hp]; nofun) ▸ hp
    · exact .of_not_pending (by rw [hregs]; rfl)
  | run i u =>
    have hx := (step_of_nextTask_run htask).symm.trans hstep
    obtain ⟨agenda, rfl⟩ := nextTask_run_eq htask
    have hg' : State.GateClosed { s with agenda := agenda } := ⟨hpending, hev3⟩
    cases hc : i.isCommand with
    | true => exact exec_command_gateClosed hc hx hg'
    | false =>
      refine exec_event_gateClosed hc hx (fun hp hi => ?_) hg'
      exact Bool.and_eq_false_iff.mpr (hclean _ hp (hi ▸ htask))

/-! ### No range error out of PROC -/

/-- `t` has the history of `s` with entries appended, and none of them is `ERR_RANGE` answered to PROC (R155). -/
def State.AppendsNoRangeError (s t : State) : Prop :=
  ∃ es, t.hist = s.hist ++ es ∧ Entry.rsp (commandWord .proc) 0x01 ∉ es

theorem appendsNoRangeError_of_hist_eq {s t : State} (h : t.hist = s.hist) : s.AppendsNoRangeError t :=
  ⟨[], by rw [h, List.append_nil], List.not_mem_nil⟩

/-- Only `ERR_RANGE` has the byte 0x01 (R90). -/
theorem Status.byte_eq_one_iff (st : Status) : st.byte = 0x01 ↔ st = .errRange := by
  cases st with
  | ok | errRange | errIllegal | errState => decide
  | errDrv c =>
    refine iff_of_false (fun h => ?_) nofun
    have hb := congrArg BitVec.toNat h
    rw [errDrv_byte_toNat] at hb
    change _ = 1 at hb
    omega

section AppendsNoRangeError

variable {s u : State}

theorem State.AppendsNoRangeError.request (h : s.AppendsNoRangeError u) (r : Request) :
    s.AppendsNoRangeError (u.request r) := by
  obtain ⟨es, hhist, hes⟩ := h
  exact ⟨es ++ [.req r u.nextAnswer], by rw [request_hist, hhist, List.append_assoc], by simpa using hes⟩

theorem State.AppendsNoRangeError.answer (h : s.AppendsNoRangeError u) {w : Word32} {st : Status}
    (hst : w = commandWord .proc → st ≠ .errRange) : s.AppendsNoRangeError (u.answer w st) := by
  obtain ⟨es, hhist, hes⟩ := h
  refine ⟨es ++ [.rsp w st.byte], by rw [answer_hist, hhist, List.append_assoc], ?_⟩
  rw [List.mem_append, List.mem_singleton, not_or]
  refine ⟨hes, fun he => ?_⟩
  injection he with hw hbyte
  exact hst hw.symm ((Status.byte_eq_one_iff st).mp hbyte.symm)

theorem State.AppendsNoRangeError.returnTo (h : s.AppendsNoRangeError u) {st : Status}
    {cont : Label}
    (hst : u.fg.cmd = commandWord .proc → st ≠ .errRange) :
    s.AppendsNoRangeError (u.returnTo cont st) := by
  obtain ⟨-, he⟩ | ⟨-, -, he⟩ | ⟨-, -, he⟩ := returnTo_cases u cont st <;> rw [he]
  · exact h.answer hst
  · exact h
  · exact State.AppendsNoRangeError.answer (u := { u with fg := { u.fg with ret := .host } }) h hst

end AppendsNoRangeError

/-- DR0 alone can return `ERR_RANGE`, and with a bearing below 360 it does not (R114). -/
theorem microAt_appendsNoRangeError {s t : State} (h : microAt s = .next t)
    (hdr0 : s.fg.pc = .dr0 → s.fg.cmd = commandWord .proc → s.operand < 360) : s.AppendsNoRangeError t := by
  have hs : s.AppendsNoRangeError s := appendsNoRangeError_of_hist_eq rfl
  unfold microAt at h
  cases hl : s.fg.pc with rw [hl] at h
  | idle | ev2 | ev3 | ev5 | ev6 | ev8 =>
    cases h
    exact hs
  | ev9 | rr1 | ak1 =>
    cases h
    exact hs.answer fun _ => nofun
  | ev1 | ev4 | ev7 =>
    simp only [microEV1, microEV4, microEV7] at h
    split at h <;> cases h
    · exact hs
    · exact hs.answer fun _ => nofun
  | rn1 | rn4 | rn5 =>
    simp only [microRN1, microRN4, microRN5] at h
    split at h <;> cases h <;> exact hs
  | rn2 =>
    simp only [microRN2] at h
    split at h <;> cases h
    · exact hs
    · exact hs.returnTo fun _ => nofun
  | dr0 =>
    simp only [microDR0] at h
    split at h <;> rename_i hrange
    · cases h
      refine hs.returnTo fun hcmd => ?_
      exact absurd (of_decide_eq_true hrange) (Nat.not_le.mpr (hdr0 hl hcmd))
    · split at h <;> cases h <;> exact hs
  | in1 | de1 | st2 | so2 =>
    simp only [microIN1, microDE1, microST2, microSO2] at h
    split at h <;> cases h
    · exact (hs.request _).answer fun _ => nofun
    · exact (hs.request _).answer fun _ => nofun
  | st1 | so1 =>
    simp only [microST1, microSO1] at h
    split at h <;> cases h
    · exact (hs.request _).answer fun _ => nofun
    · exact hs.request _
  | rn3 =>
    simp only [microRN3] at h
    split at h <;> cases h
    · exact (hs.request _).returnTo fun _ => nofun
    · exact hs.request _
  | sp1 | ds1 =>
    simp only [microSP1, microDS1] at h
    split at h <;> cases h
    · exact (hs.request _).returnTo fun _ => nofun
    · refine State.AppendsNoRangeError.returnTo ?_ fun _ => nofun
      exact hs.request _
  | db =>
    simp only [microDB] at h
    split at h
    · cases h
      exact (hs.request _).returnTo fun _ => nofun
    · split at h <;> cases h
      · refine State.AppendsNoRangeError.returnTo ?_ fun _ => nofun
        exact hs.request _
      · exact hs.request _

theorem accept_appendsNoRangeError (s : State) (i : Instr) (first : Label) :
    s.AppendsNoRangeError (s.accept i first) := by
  have hs : s.AppendsNoRangeError s := appendsNoRangeError_of_hist_eq rfl
  obtain ⟨-, he⟩ | ⟨-, he⟩ := accept_cases s i first <;> rw [he]
  · exact hs
  · exact hs.answer fun _ => nofun

/-- Where PROC is at DR0 it has called DIR, with a bearing of the table, which is below 360 (R12, R162, R229). -/
theorem Inv.operand_lt_of_proc_at_dr0 {s : State} (hinv : Inv s) (hpc : s.fg.pc = .dr0)
    (hcmd : s.fg.cmd = commandWord .proc) : s.operand < 360 := by
  have hcoh : s.fg.coherent = true := hinv.fg.coherent (by rw [hpc]; nofun)
  have hdecode : decodeCommand s.fg.cmd = .ok .proc := by rw [hcmd]; rfl
  have hret : s.fg.ret = .proc := by
    simpa [Foreground.coherent, hdecode, runsAt, hpc, Label.inEvaluate, Label.callable] using hcoh
  exact hinv.fg.tableBearing ⟨hpc, hret⟩

theorem exec_command_appendsNoRangeError {i : Instr} {s t : State} (hc : i.isCommand = true)
    (h : exec i s = .next t) (hdr0 : s.fg.pc = .dr0 → s.fg.cmd = commandWord .proc → s.operand < 360) :
    s.AppendsNoRangeError t := by
  obtain ⟨-, ht⟩ | ⟨-, ht⟩ | ⟨-, -, hm⟩ := exec_command_cases hc h
  · exact ht ▸ accept_appendsNoRangeError s i _
  · exact ht ▸ appendsNoRangeError_of_hist_eq rfl
  · exact microAt_appendsNoRangeError hm hdr0

/-- A step that the invariants allow appends no `ERR_RANGE` of PROC, or it is a reset cycle, which empties the
history. -/
theorem Inv.step_appendsNoRangeError {s t : State} (hinv : Inv s) (h : step s = .next t) :
    s.AppendsNoRangeError t ∨ t.hist = [] := by
  have hs : s.AppendsNoRangeError s := appendsNoRangeError_of_hist_eq rfl
  cases step_kind h with
  | event i agenda hi hx =>
    refine .inl (appendsNoRangeError_of_hist_eq ?_)
    rw [exec_event_regs_only hi hx]
  | running i agenda _ hd hx | offered i w agenda _ hd hx =>
    have hno := exec_command_appendsNoRangeError (isCommand_of_decodeCommand hd) hx hinv.operand_lt_of_proc_at_dr0
    exact .inl hno
  | nothing agenda ht | read addr agenda ht =>
    subst ht
    exact .inl hs
  | illegal w agenda _ _ ht =>
    subst ht
    exact .inl (hs.answer fun _ => nofun)
  | cycle p agenda ht =>
    subst ht
    cases hp : p.rstN with
    | true => exact .inl (appendsNoRangeError_of_hist_eq (clockCycle_hist hp))
    | false => exact .inr (clockCycle_reset hp).1

/-- Settles O52: what a step appends is determined by the two histories. -/
theorem procNeverReportsARangeError : Obligations.ProcNeverReportsARangeError := by
  intro s t es hinv h hes
  obtain ⟨es', hhist, hno⟩ | hempty := hinv.step_appendsNoRangeError h
  · rwa [List.append_cancel_left (hes.symm.trans hhist)]
  · rw [(List.append_eq_nil_iff.mp (hes.symm.trans hempty)).2]
    exact List.not_mem_nil

end Sys2Proof.Machine
end

section
/-! PROOFS. The host's operations: a command out of lifecycle order (O9), and INIT, DEINIT, START, STOP and ACK
(O11 to O15), from how the one request of their micro-steps ends. -/

namespace Sys2Proof.Machine

open Sys2Proof.Config

/-! ### Refusal -/

/-- Settles O9: the refused case of `accept_cases`, whose answer leaves an idle FG as it is. -/
theorem lifecycleRefusalChangesNothing : Obligations.LifecycleRefusalChangesNothing := by
  intro i s hc hp hinited
  obtain ⟨hallows, -⟩ | ⟨-, haccept⟩ := accept_cases s i (firstLabel i)
  · have hneeded : s.regs.inited = decide (i ≠ .init) := lifecycleAllows_iff.mp hallows
    simp [hinited] at hneeded
  · rw [exec_command_idle hc hp, haccept]
    exact congrArg _ (answer_of_idle hp (commandWord i) .errState)

/-! ### How a micro-step with a request ends -/

section Requests

variable {s : State} (r : Request)

theorem request_respond (regs : Regs) (st : Status) :
    State.respond { s.request r with regs := regs } st =
      State.ended { s with regs := regs } [.req r s.nextAnswer] st.byte := by
  simp [respond_eq_ended, State.ended]

/-- A refused request ends the command with `ERR_DRV`, and nothing is written (R90, R205). -/
theorem request_refused_ends (ha : s.nextAnswer ≠ 0) :
    (s.request r).respond (.errDrv s.nextAnswer) =
      s.ended [.req r s.nextAnswer] (driverStatus s.nextAnswer) := by
  rw [← errDrv_byte ha]
  exact request_respond r s.regs _

/-- A micro-step that ends its command on both answers leaves the registers that the answer selects, and the answer's
own status (R90). -/
theorem request_ends (refused accepted : Regs) :
    (if s.nextAnswer ≠ 0 then
      Host.Outcome.next (State.respond { s.request r with regs := refused } (.errDrv s.nextAnswer))
     else .next (State.respond { s.request r with regs := accepted } .ok) : Result) =
      .next (State.ended { s with regs := if s.nextAnswer = 0 then accepted else refused }
        [.req r s.nextAnswer] (driverStatus s.nextAnswer)) := by
  by_cases ha : s.nextAnswer = 0
  · have hok : driverStatus s.nextAnswer = Status.ok.byte := by rw [ha]; rfl
    rw [if_neg (not_not.mpr ha), if_pos ha, request_respond, hok]
  · rw [if_pos ha, if_neg ha, request_respond, errDrv_byte ha]

end Requests

/-! ### INIT, DEINIT and ACK -/

/-- Settles O11: an accepted ACQUIRE selects the reset registers, a refused one those that stand. -/
theorem initResetsOnSuccess : Obligations.InitResetsOnSuccess := by
  intro s h
  have ⟨hpc, _, _⟩ := h
  rw [exec_standing h rfl, microAt, hpc]
  exact request_ends (.plain .acquire) s.regs { Regs.reset s.cfg with inited := true }

/-- Settles O12: the flags are cleared before the request, so both answers select the same registers. -/
theorem deinitClearsTheEnables : Obligations.DeinitClearsTheEnables := by
  intro s h
  have ⟨hpc, _, _⟩ := h
  rw [exec_standing h rfl, microAt, hpc]
  refine (request_ends (.plain .release) _ _).trans ?_
  rw [ite_self]
  rfl

/-- Settles O15: AK1 writes the one flag, and answers `OK`. -/
theorem ackClearsNewScenario : Obligations.AckClearsNewScenario := by
  intro s h
  have ⟨hpc, _, _⟩ := h
  rw [exec_standing h rfl, microAt, hpc]
  exact congrArg _ (respond_ok _)

/-! ### START and STOP -/

/-- ST2 sets `tick_en` when the driver has started the tick, and keeps it otherwise (R183). -/
theorem tickEn_after_start (r : Regs) (c : Answer) :
    (if c = 0 then { r with tickEn := true } else r) = { r with tickEn := r.tickEn || decide (c = 0) } := by
  by_cases hc : c = 0
  · rw [if_pos hc, decide_eq_true hc, Bool.or_true]
  · rw [if_neg hc, decide_eq_false hc, Bool.or_false]

/-- SO2 clears `tick_en` when the driver has stopped the tick, and keeps it otherwise (R184). -/
theorem tickEn_after_stop (r : Regs) (c : Answer) :
    (if c = 0 then { r with tickEn := false } else r) = { r with tickEn := r.tickEn && decide (c ≠ 0) } := by
  by_cases hc : c = 0
  · rw [if_pos hc, decide_eq_false (not_not.mpr hc), Bool.and_false]
  · rw [if_neg hc, decide_eq_true hc, Bool.and_true]

/-- Settles O13: ST1 goes on after an accepted request and ends after a refused one; ST2 ends on both answers. -/
theorem startEnablesBothSources : Obligations.StartEnablesBothSources := by
  intro s
  refine ⟨fun h ha => ?_, fun h ha => ?_, fun h => ?_⟩ <;>
    have ⟨hpc, _, _⟩ := h <;> rw [exec_standing h rfl, microAt, hpc]
  · rw [← ha]
    exact (if_neg (not_not.mpr ha)).trans (congrArg _ (request_goto s (.plain .irqArm) _ .st2))
  · exact (if_pos ha).trans (congrArg _ (request_refused_ends (.plain .irqArm) ha))
  · rw [← tickEn_after_start]
    exact request_ends (tickStartRequest s.cfg) s.regs { s.regs with tickEn := true }

/-- Settles O14: as START, with SO1 and SO2. -/
theorem stopDisablesBothSources : Obligations.StopDisablesBothSources := by
  intro s
  refine ⟨fun h ha => ?_, fun h ha => ?_, fun h => ?_⟩ <;>
    have ⟨hpc, _, _⟩ := h <;> rw [exec_standing h rfl, microAt, hpc]
  · rw [← ha]
    exact (if_neg (not_not.mpr ha)).trans (congrArg _ (request_goto s (.plain .irqDisarm) _ .so2))
  · exact (if_pos ha).trans (congrArg _ (request_refused_ends (.plain .irqDisarm) ha))
  · rw [← tickEn_after_stop]
    exact request_ends (.plain .tickStop) s.regs { s.regs with tickEn := false }

end Sys2Proof.Machine
end

section
/-! PROOFS. The re-arm race (O39), and the invariants of R229: they hold at reset (O46), every step keeps them (O47).
Each write keeps what R229 says of the registers, each move of FG keeps what it says of FG's position, and a micro-step
is put together from the two. -/

namespace Sys2Proof.Machine

open Sys2Proof.Config

/-! ### The re-arm race -/

/-- A turn of FG at EV2 without a pending edge writes nothing (R157). -/
theorem step_ev2_noEdge {s : State} {rest : List Move} (ha : s.agenda = .fg :: rest)
    (h : s.StandsAt .proc .ev2 .host) (hpending : s.regs.pending = false) :
    step s = .next (State.goto { s with agenda := rest } .ev3) := by
  have ⟨hpc, _, hcmd⟩ := h
  rw [step_fg ha (by rw [hpc]; nofun) (by rw [hcmd]; rfl),
    exec_proc_evaluate (s := { s with agenda := rest }) rfl h, microAt, hpc]
  simp [microEV2, hpending]

/-- An edge at an open gate is taken (R140). -/
theorem step_sync_effective {s : State} {rest : List Move} (ha : s.agenda = .events 0b001 :: rest)
    (hopen : s.regs.gateOpen = true) : step s = .next { s with agenda := rest, regs := s.regs.takeEdge } :=
  (step_events ha rfl).trans (exec_sync_effective (s := { s with agenda := rest }) hopen)

/-- A turn of FG at EV3 past the guard arms the gate (R158). -/
theorem step_ev3_rearms {s : State} {rest : List Move} (ha : s.agenda = .fg :: rest)
    (h : s.StandsAt .proc .ev3 .host) (hguard : s.cfg.debounceMs < s.regs.elapsedMs.toNat) :
    step s = .next (State.goto { s with agenda := rest, regs := { s.regs with armed := true } } .ev4) := by
  have ⟨hpc, _, hcmd⟩ := h
  rw [step_fg ha (by rw [hpc]; nofun) (by rw [hcmd]; rfl),
    evaluateRearmsAfterTheGuard { s with agenda := rest } h, goto_eq_advanced]
  simp [hguard]

/-- Settles O39: EV2 sees no edge, the SYNC after it is effective, and EV3 arms the gate over the edge that it left. -/
theorem rearmRaceLeavesTheGateOpen : Obligations.RearmRaceLeavesTheGateOpen := by
  intro s rest hev2 hpending harmed hsync hguard hagenda
  have ⟨_, hret, hcmd⟩ := hev2
  have hopen : s.regs.gateOpen = true := Bool.and_eq_true_iff.mpr ⟨hsync, harmed⟩
  have hrun := calc
    Host.Core.run Sys2Proof.core 3 s
      = Host.Core.run Sys2Proof.core 2 _ := run_succ (step_ev2_noEdge hagenda hev2 hpending) 2
    _ = Host.Core.run Sys2Proof.core 1 _ := run_succ (step_sync_effective rfl (by exact hopen)) 1
    _ = .next _ := run_one (step_ev3_rearms rfl (by exact ⟨rfl, hret, hcmd⟩) (by exact hguard))
  exact ⟨_, hrun, rfl, rfl, rfl, rfl⟩

/-! ### What R229 says of the registers -/

section Registers

variable {r : Regs} {c : Params}

theorem Regs.reset_ok (hc : c.Valid) : (Regs.reset c).Ok c where
  peakSpeed := Nat.zero_le _
  peakDirectionIndex := hc.nDir.1
  peakRainfall := Nat.zero_le _
  currentSpeed := le_rfl
  currentRainfall := le_rfl
  pendingSeen := nofun
  beforeFirstSync _ := ⟨rfl, rfl, rfl, rfl, rfl, rfl⟩
  enables := nofun
  elapsed := dvd_zero _
  speedDuty := .inl rfl
  outDirDuty := .inl rfl
  rainAcc := dvd_zero _

/-- A sum of multiples that fits its register is a multiple there (R22). -/
theorem dvd_toNat_ofNat_add {d n : Nat} (hd : d ∣ n) (hfit : n + d < 2 ^ 32) : d ∣ (BitVec.ofNat 32 (n + d)).toNat := by
  rw [BitVec.toNat_ofNat, Nat.mod_eq_of_lt hfit]
  exact hd.add (dvd_refl d)

theorem Regs.Ok.afterEvent {i : Instr} (h : r.Ok c) (hfit : r.eventFits c i) : (r.afterEvent c i).Ok c := by
  cases heff : r.eventEffective i with
  | false =>
    rw [afterEvent_ineffective heff]
    exact h
  | true =>
    rw [afterEvent_effective heff]
    cases i with
    | sync => exact { h with pendingSeen := fun _ => rfl, beforeFirstSync := nofun }
    | tick => exact { h with elapsed := dvd_toNat_ofNat_add h.elapsed (hfit rfl heff) }
    | done => exact { h with }
    | _ => exact h

/-- EV2's writes: the peaks stay below their bounds, and what is counted against them starts from 0 (R157). -/
theorem Regs.Ok.acceptEdge (h : r.Ok c) (hc : c.Valid) (hpending : r.pending = true) : (r.acceptEdge c).Ok c := by
  obtain ⟨hspeed, hdir, hrain⟩ := acceptEdge_peaks hc r
  have hseen : (r.acceptEdge c).firstSyncSeen = true := h.pendingSeen hpending
  exact { h with
    peakSpeed := by rw [hspeed]; exact Nat.le_of_lt_succ (Nat.mod_lt _ (Nat.succ_pos _))
    peakDirectionIndex := by rw [hdir]; exact Nat.mod_lt _ hc.nDir.1
    peakRainfall := by rw [hrain]; exact Nat.le_of_lt_succ (Nat.mod_lt _ (Nat.succ_pos _))
    currentSpeed := Nat.zero_le _
    currentRainfall := Nat.zero_le _
    pendingSeen := nofun
    beforeFirstSync := by rw [hseen]; nofun
    elapsed := dvd_zero _
    rainAcc := dvd_zero _ }

/-- EV3 arms the gate, which before the first synchronization is armed already (R158). -/
theorem Regs.Ok.rearm (h : r.Ok c) : Regs.Ok { r with armed := true } c :=
  { h with beforeFirstSync := fun hseen => ⟨rfl, (h.beforeFirstSync hseen).2⟩ }

theorem rampNext_le {peak current : Nat} (h : current ≤ peak) (d : RampDir) : (rampNext peak current d).1 ≤ peak := by
  unfold rampNext
  split
  · exact h
  split
  · exact Nat.sub_le _ _
  split
  · exact Nat.one_le_iff_ne_zero.mpr ‹_›
  cases d with
  | up => exact Nat.not_le.mp ‹_›
  | down => exact (Nat.sub_le _ _).trans h

/-- EV4 consumes the period, and the ramp stays at or below the peak (R159, R160). -/
theorem Regs.Ok.rampStep (h : r.Ok c) : (Regs.rampStep { r with periodFlag := false }).Ok c :=
  { h with currentSpeed := (Nat.mod_le _ _).trans (rampNext_le h.currentSpeed r.rampDirection) }

/-- EV9 counts a millimetre that the peak still allows (R165). -/
theorem Regs.Ok.countMillimetre (h : r.Ok c) (hlt : r.currentRainfall.toNat < r.peakRainfall.toNat) :
    Regs.Ok { r with currentRainfall := r.currentRainfall + 1 } c :=
  have hle : (r.currentRainfall + 1).toNat ≤ r.peakRainfall.toNat := by bv_omega
  { h with currentRainfall := hle }

theorem speedWave_duty (kmh : Nat) : (speedWave c kmh).2 = 0 ∨ (speedWave c kmh).2 = 50 := by
  unfold speedWave
  dsimp only
  split
  · exact .inl rfl
  · exact .inr rfl

/-- SP1's shadow holds one of SPEED's two duties (R111). -/
theorem Regs.Ok.speedShadow (h : r.Ok c) (f : Word32) (kmh : Nat) :
    Regs.Ok { r with speedFreq := f, speedDuty := BitVec.ofNat 7 (speedWave c kmh).2 } c :=
  { h with speedDuty := (speedWave_duty kmh).imp (congrArg (BitVec.ofNat 7)) (congrArg (BitVec.ofNat 7)) }

theorem directionDuty_bounds (speedDuty deg : Nat) :
    1 ≤ directionDuty speedDuty deg ∧ directionDuty speedDuty deg ≤ 99 := by
  unfold directionDuty
  dsimp only
  split <;> omega

/-- DS1's duty is 1 to 99 (R120). -/
theorem Regs.Ok.directionOutput (h : r.Ok c) (f : Word32) (speedDuty deg : Nat) :
    Regs.Ok { r with outDirFreq := f, outDirDuty := BitVec.ofNat 7 (directionDuty speedDuty deg) } c :=
  { h with outDirDuty := .inr (by
      rw [BitVec.toNat_ofNat, Nat.mod_eq_of_lt (directionDuty_lt speedDuty deg)]
      exact directionDuty_bounds speedDuty deg) }

/-- R229 says nothing of the banks and of the target. -/
theorem Regs.Ok.bankOutput (h : r.Ok c) (banks : BitVec 8) : Regs.Ok { r with outBankSel := banks } c := { h with }

@[inherit_doc Regs.Ok.bankOutput]
theorem Regs.Ok.rainTarget (h : r.Ok c) (target : Word32) : Regs.Ok { r with rainTargetUm := target } c := { h with }

/-- RN4's sum is one more pulse (R122). -/
theorem Regs.Ok.addPulse (h : r.Ok c) (hfit : r.rainAccUm.toNat + c.edgeToUm < 2 ^ 32) :
    Regs.Ok { r with rainAccUm := BitVec.ofNat 32 (r.rainAccUm.toNat + c.edgeToUm) } c :=
  { h with rainAcc := dvd_toNat_ofNat_add h.rainAcc hfit }

theorem Regs.Ok.zeroRain (h : r.Ok c) : r.zeroRain.Ok c :=
  { h with rainAcc := dvd_zero _ }

/-- AK1 takes the mark down, which before the first synchronization is down already (R185). -/
theorem Regs.Ok.acknowledge (h : r.Ok c) : Regs.Ok { r with newScenario := false } c :=
  { h with beforeFirstSync := fun hseen =>
      have ⟨harmed, hpending, _, hpeaks⟩ := h.beforeFirstSync hseen
      ⟨harmed, hpending, rfl, hpeaks⟩ }

/-- The event sources may be on while `inited` is 1, and off at any time (R182 to R184). -/
theorem Regs.Ok.enable (h : r.Ok c) {syncEn tickEn inited : Bool}
    (hen : syncEn = true ∨ tickEn = true → inited = true) :
    Regs.Ok { r with syncEn := syncEn, tickEn := tickEn, inited := inited } c :=
  { h with enables := hen }

end Registers

/-! ### Where FG stands -/

/-- The first micro-step of the operation that a label belongs to, PROC's own micro-steps apart from those of the
operations it calls (R40). -/
def Label.start : Label → Label
  | .ev1 | .ev2 | .ev3 | .ev4 | .ev5 | .ev6 | .ev7 | .ev8 | .ev9 => .ev1
  | .dr0 | .db | .ds1 => .dr0
  | .rn1 | .rn2 | .rn3 | .rn4 | .rn5 => .rn1
  | .st1 | .st2 => .st1
  | .so1 | .so2 => .so1
  | .idle => .idle
  | .sp1 => .sp1
  | .rr1 => .rr1
  | .in1 => .in1
  | .de1 => .de1
  | .ak1 => .ak1

/-- A command that stands at one micro-step of an operation can stand at any other (R40). -/
theorem runsAt_start (i : Instr) (l : Label) (ret : Link) : runsAt i l ret = runsAt i l.start ret := by
  cases i with
  | start | stop | dir => cases l <;> cases ret <;> rfl
  | _ => cases l <;> rfl

/-- FG stands at IN1 when it runs INIT, and then alone (R40, R181). -/
theorem runsAt_in1_iff {i : Instr} {l : Label} {ret : Link} (h : runsAt i l ret = true) : l = .in1 ↔ i = .init := by
  constructor
  · rintro rfl
    cases i with
    | init => rfl
    | _ => simp [runsAt, Label.inEvaluate, Label.callable, Label.inRain] at h
  · rintro rfl
    exact (of_decide_eq_true h).1

theorem Label.start_of_inEvaluate {l : Label} (h : l.inEvaluate = true) : l.start = .ev1 := by
  cases l with
  | ev1 | ev2 | ev3 | ev4 | ev5 | ev6 | ev7 | ev8 | ev9 => rfl
  | _ => cases h

/-- At EV1 to EV9 FG runs PROC, under the host's link (R40; assumption log 9). -/
theorem eq_proc_of_runsAt_inEvaluate {i : Instr} {l : Label} {ret : Link} (hl : l.inEvaluate = true)
    (h : runsAt i l ret = true) : i = .proc ∧ ret = .host := by
  rw [runsAt_start, Label.start_of_inEvaluate hl] at h
  cases i with
  | proc => simpa [runsAt, Label.inEvaluate, Label.callable] using h
  | _ => simp [runsAt, Label.inRain] at h

/-- Under PROC's link FG runs PROC (R40). -/
theorem eq_proc_of_runsAt_link {i : Instr} {l : Label} (h : runsAt i l .proc = true) : i = .proc := by
  cases i with
  | proc => rfl
  | _ => simp [runsAt] at h

theorem Foreground.coherent_iff (f : Foreground) :
    f.coherent = true ↔ ∃ i, decodeCommand f.cmd = .ok i ∧ runsAt i f.pc f.ret = true := by
  unfold Foreground.coherent
  cases decodeCommand f.cmd <;> simp

/-- The labels that FG reaches only with rain still to fall, but for a RAIN that the host issued (R163 to R165). -/
def Label.rainy (l : Label) : Bool := l = .ev8 ∨ l = .ev9 ∨ l.inRain

theorem Foreground.rainy_of_raining {f : Foreground} (h : f.raining = true) : f.pc.rainy = true := by
  simp only [Foreground.raining, Label.rainy, decide_eq_true_eq] at h ⊢
  exact h.imp_right (.imp_right And.right)

theorem Foreground.raining_of_proc {f : Foreground} (hret : f.ret = .proc) (hpc : f.pc.inRain = true) :
    f.raining = true := by
  simp [Foreground.raining, hret, hpc]

/-! ### What R229 says of FG -/

section Position

variable {f g : Foreground} {r r' : Regs}

theorem Foreground.ok_of_idle (hpc : f.pc = .idle) (hfree : r.rainInflight = false) : f.Ok r where
  raining h := absurd (Foreground.rainy_of_raining h) (by rw [hpc]; decide)
  busyInited hp := absurd hpc hp
  inflight h := absurd h (by rw [hfree]; decide)
  coherent hp := absurd hpc hp
  bankIndex h := absurd h (by rw [hpc]; decide)
  bearing h := absurd h (by rw [hpc]; decide)
  tableBearing h := absurd h.1 (by rw [hpc]; decide)

/-- What R229 says of FG rests on four registers. -/
theorem Foreground.Ok.of_regs (h : f.Ok r) (hinited : r'.inited = r.inited)
    (hinflight : r'.rainInflight = true → f.pc = .rn4 ∨ f.pc = .rn5)
    (hraining : f.raining = true → r'.currentRainfall.toNat < r'.peakRainfall.toNat) : f.Ok r' :=
  { h with
    raining := hraining
    busyInited := by rw [hinited]; exact h.busyInited
    inflight := hinflight }

/-- A busy FG may move to where its command can stand, with what R229 says of the place it comes to. -/
theorem Foreground.Ok.move (h : f.Ok r) (hp : f.pc ≠ .idle) (hcmd : g.cmd = f.cmd)
    (hruns : ∀ i, runsAt i f.pc f.ret = true → runsAt i g.pc g.ret = true)
    (hinflight : g.pc = .rn4 ∨ g.pc = .rn5 ∨ r.rainInflight = false)
    (hraining : g.raining = true → r.currentRainfall.toNat < r.peakRainfall.toNat)
    (hdir : g.pc.start = .dr0 → g.arg.toNat < 360 ∧ (g.pc = .db → g.i.toNat < 8)) : g.Ok r := by
  obtain ⟨i, hd, hr⟩ := f.coherent_iff.mp (h.coherent hp)
  have hr' := hruns i hr
  have hin1 : f.pc ≠ .in1 ↔ g.pc ≠ .in1 := not_congr ((runsAt_in1_iff hr).trans (runsAt_in1_iff hr').symm)
  exact
    { raining := hraining
      busyInited := fun _ => (h.busyInited hp).trans hin1
      inflight := fun hfl => by simpa [hfl] using hinflight
      coherent := fun _ => g.coherent_iff.mpr ⟨i, hcmd ▸ hd, hr'⟩
      bankIndex := fun hpc => (hdir (by rw [hpc]; rfl)).2 hpc
      bearing := fun hpc => (hdir (by obtain hpc | hpc := hpc <;> rw [hpc] <;> rfl)).1
      tableBearing := fun ⟨hpc, _⟩ => (hdir (by rw [hpc]; rfl)).1 }

end Position

/-! ### The invariants under each operation on the state -/

section Rules

variable {s t u : State} {k : Label}

/-- The invariants speak of the parameters, the registers and FG alone. -/
theorem Inv.of_same (h : Inv s) (hcfg : t.cfg = s.cfg) (hregs : t.regs = s.regs) (hfg : t.fg = s.fg) : Inv t :=
  ⟨hcfg ▸ h.cfg, hcfg ▸ hregs ▸ h.regs, hregs ▸ hfg ▸ h.fg⟩

theorem Inv.of_agenda (h : Inv s) (agenda : List Move) : Inv { s with agenda := agenda } := h.of_same rfl rfl rfl

theorem Inv.request (h : Inv u) (r : Request) : Inv (u.request r) := h.of_same rfl rfl rfl

/-- At `IDLE` the registers decide. -/
theorem Inv.of_idle (hcfg : t.cfg.Valid) (hregs : t.regs.Ok t.cfg) (hpc : t.fg.pc = .idle)
    (hfree : t.regs.rainInflight = false) : Inv t :=
  ⟨hcfg, hregs, Foreground.ok_of_idle hpc hfree⟩

/-- A pulse is in flight at RN4 and RN5 alone. -/
theorem Inv.not_inflight (h : Inv u) (hpc : u.fg.pc = k) (hk : k ≠ .rn4 ∧ k ≠ .rn5) : u.regs.rainInflight = false := by
  subst hpc
  exact Bool.eq_false_iff.mpr fun hfl => (h.fg.inflight hfl).elim hk.1 hk.2

theorem Inv.inited (h : Inv u) (hpc : u.fg.pc = k) (hk : k ≠ .idle ∧ k ≠ .in1) : u.regs.inited = true := by
  subst hpc
  exact (h.fg.busyInited hk.1).mpr hk.2

/-- A write that leaves alone what R229 says of FG. -/
theorem Inv.write {r : Regs} (h : Inv u) (hok : r.Ok u.cfg)
    (hsame : (r.currentRainfall = u.regs.currentRainfall ∧ r.peakRainfall = u.regs.peakRainfall) ∧
      r.inited = u.regs.inited ∧ r.rainInflight = u.regs.rainInflight := by exact ⟨⟨rfl, rfl⟩, rfl, rfl⟩) :
    Inv { u with regs := r } := by
  obtain ⟨⟨hcurrent, hpeak⟩, hinited, hinflight⟩ := hsame
  exact ⟨h.cfg, hok, h.fg.of_regs hinited (hinflight ▸ h.fg.inflight) (hcurrent ▸ hpeak ▸ h.fg.raining)⟩

/-- An event writes its registers; of those that R229 sets against FG's position, DONE alone writes one
(R140, R143, R146). -/
theorem Inv.event {i : Instr} (h : Inv s) (hfit : s.regs.eventFits s.cfg i) :
    Inv { s with regs := s.regs.afterEvent s.cfg i } := by
  have hok := h.regs.afterEvent hfit
  cases heff : s.regs.eventEffective i with
  | false =>
    rw [afterEvent_ineffective heff]
    exact h
  | true =>
    rw [afterEvent_effective heff] at hok ⊢
    cases i with
    | done => exact ⟨h.cfg, hok, h.fg.of_regs rfl nofun h.fg.raining⟩
    | _ => exact h.write hok

/-- An answer takes FG to `IDLE` (R40), from where no pulse is in flight. -/
theorem Inv.answer (h : Inv u) (hpc : u.fg.pc = k) (w : Word32) (st : Status)
    (hk : k ≠ .rn4 ∧ k ≠ .rn5 := by decide) : Inv (u.answer w st) :=
  .of_idle h.cfg h.regs rfl (h.not_inflight hpc hk)

theorem Inv.respond (h : Inv u) (hpc : u.fg.pc = k) (st : Status) (hk : k ≠ .rn4 ∧ k ≠ .rn5 := by decide) :
    Inv (u.respond st) :=
  h.answer hpc u.fg.cmd st hk

/-- FG goes on within the operation. -/
theorem Inv.goto (h : Inv u) (hpc : u.fg.pc = k) (l : Label)
    (hinflight : l = .rn4 ∨ l = .rn5 ∨ u.regs.rainInflight = false)
    (hraining : l.rainy = true → (u.goto l).fg.raining = true →
      u.regs.currentRainfall.toNat < u.regs.peakRainfall.toNat)
    (hdir : l.start = .dr0 → u.fg.arg.toNat < 360 ∧ (l = .db → u.fg.i.toNat < 8))
    (hop : k ≠ .idle ∧ l.start = k.start := by decide) : Inv (u.goto l) := by
  subst hpc
  refine ⟨h.cfg, h.regs, h.fg.move hop.1 rfl (fun i hr => ?_) hinflight
    (fun hr => hraining (Foreground.rainy_of_raining hr) hr) hdir⟩
  rw [goto_pc, goto_ret, runsAt_start, hop.2, ← runsAt_start]
  exact hr

/-- FG goes on to a label of which R229 says nothing more. -/
theorem Inv.goto_plain (h : Inv u) (hpc : u.fg.pc = k) (l : Label)
    (hl : l.rainy = false ∧ l.start ≠ .dr0 := by decide) (hk : k ≠ .rn4 ∧ k ≠ .rn5 := by decide)
    (hop : k ≠ .idle ∧ l.start = k.start := by decide) : Inv (u.goto l) :=
  h.goto hpc l (.inr (.inr (h.not_inflight hpc hk)))
    (fun hr => absurd hr (Bool.eq_false_iff.mp hl.1)) (fun hd => absurd hd hl.2) hop

theorem Label.start_of_inRain {l : Label} (h : l.inRain = true) : l.start = .rn1 ∧ l ≠ .ev8 ∧ l ≠ .ev9 := by
  cases l with
  | rn1 | rn2 | rn3 | rn4 | rn5 => decide
  | _ => cases h

/-- FG goes on within RAIN: the rain it lets fall is the same. -/
theorem Inv.goto_rain (h : Inv u) (hpc : u.fg.pc = k) (l : Label)
    (hinflight : l = .rn4 ∨ l = .rn5 ∨ u.regs.rainInflight = false)
    (hrain : k.inRain = true ∧ l.inRain = true := by decide)
    (hop : k ≠ .idle ∧ l.start = k.start := by decide) : Inv (u.goto l) := by
  obtain ⟨hk, hl⟩ := hrain
  obtain ⟨hstart, hev8, hev9⟩ := Label.start_of_inRain hl
  refine h.goto hpc l hinflight (fun _ hr => h.fg.raining ?_) (fun hd => absurd (hstart.symm.trans hd) nofun) hop
  simp only [Foreground.raining, goto_pc, goto_ret, hev8, hev9, false_or, decide_eq_true_eq] at hr
  exact Foreground.raining_of_proc hr.1 (hpc ▸ hk)

/-- PROC calls an operation at its first micro-step (R161, R162, R164). -/
theorem Inv.call (h : Inv u) (hpc : u.fg.pc = k) (l : Label) (arg : Half)
    (hraining : l.rainy = true → u.regs.currentRainfall.toNat < u.regs.peakRainfall.toNat)
    (hdir : l.start = .dr0 → arg.toNat < 360)
    (hl : l.callable = true ∧ l ≠ .db := by decide) (hk : k.inEvaluate = true := by decide) : Inv (u.call l arg) := by
  subst hpc
  have hne (m : Label) (hm : m.inEvaluate = false) : u.fg.pc ≠ m := fun hpc => absurd hk (by rw [hpc, hm]; decide)
  have hfree := h.not_inflight rfl ⟨hne .rn4 rfl, hne .rn5 rfl⟩
  refine ⟨h.cfg, h.regs, h.fg.move (hne .idle rfl) rfl (fun i hr => ?_) (.inr (.inr hfree))
    (fun hr => hraining (Foreground.rainy_of_raining hr)) (fun hd => ⟨hdir hd, fun hdb => absurd hdb hl.2⟩)⟩
  obtain ⟨rfl, -⟩ := eq_proc_of_runsAt_inEvaluate hk hr
  simp [runsAt, hl.1]

/-- A waveform operation returns to the host, or to PROC's next micro-step (R40, R166), where the bank index no longer
matters. -/
theorem Inv.returnTo_index (h : Inv u) (hpc : u.fg.pc = k) (i : BitVec 4) (cont : Label) (st : Status)
    (hcont : cont.inEvaluate = true ∧ (cont.rainy = true → k.inRain = true) := by decide)
    (hk : k ≠ .idle ∧ k ≠ .rn4 ∧ k ≠ .rn5 := by decide) :
    Inv (State.returnTo { u with fg := { u.fg with i := i } } cont st) := by
  obtain ⟨hp, hk⟩ := hk
  obtain ⟨hcont, hrain⟩ := hcont
  have hfree := h.not_inflight hpc hk
  obtain ⟨-, he⟩ | ⟨hret, -, he⟩ | ⟨-, -, he⟩ := returnTo_cases { u with fg := { u.fg with i := i } } cont st <;>
    rw [he]
  · exact .of_idle h.cfg h.regs rfl hfree
  · refine ⟨h.cfg, h.regs, h.fg.move (hpc ▸ hp) rfl (fun j hr => ?_) (.inr (.inr hfree))
      (fun hr => h.fg.raining ?_) (fun hd => ?_)⟩
    · rw [hret] at hr
      simp [eq_proc_of_runsAt_link hr, runsAt, hcont]
    · exact Foreground.raining_of_proc hret (hpc ▸ hrain (Foreground.rainy_of_raining hr))
    · exact absurd ((Label.start_of_inEvaluate hcont).symm.trans hd) nofun
  · exact .of_idle h.cfg h.regs rfl hfree

theorem Inv.returnTo (h : Inv u) (hpc : u.fg.pc = k) (cont : Label) (st : Status)
    (hcont : cont.inEvaluate = true ∧ (cont.rainy = true → k.inRain = true) := by decide)
    (hk : k ≠ .idle ∧ k ≠ .rn4 ∧ k ≠ .rn5 := by decide) : Inv (u.returnTo cont st) :=
  h.returnTo_index hpc u.fg.i cont st hcont hk

/-- The bank index counts in DB alone (R115). -/
theorem Inv.setIndex (h : Inv u) (i : BitVec 4) (hi : u.fg.pc = .db → i.toNat < 8) :
    Inv { u with fg := { u.fg with i := i } } :=
  ⟨h.cfg, h.regs, { h.fg with bankIndex := hi }⟩

/-- Reset (R46, R226). -/
theorem resetWith_inv {c : Params} (hc : c.Valid) : Inv (State.resetWith c) :=
  .of_idle hc (Regs.reset_ok hc) rfl rfl

/-- A clock cycle resets the block, or leaves registers and FG to the transitions after it (R70, R97). -/
theorem Inv.clockCycle (h : Inv s) (p : Pins) : Inv (s.clockCycle p) := by
  unfold State.clockCycle
  split
  · exact h.of_same rfl rfl rfl
  · exact (resetWith_inv h.cfg).of_same rfl rfl rfl

end Rules

/-- Settles O46: the implementation's parameters are valid, too. -/
theorem invariantHoldsAtReset : Obligations.InvariantHoldsAtReset :=
  ⟨resetWith_inv params_valid, fun _ => resetWith_inv⟩

/-! ### The invariants under acceptance -/

theorem runsAt_firstLabel {i : Instr} (hc : i.isCommand = true) : runsAt i (firstLabel i) .host = true := by
  cases i <;> cases hc <;> rfl

/-- No command begins at a label of which R229 asks something under the host's link. -/
theorem firstLabel_ne (i : Instr) :
    firstLabel i ≠ .ev8 ∧ firstLabel i ≠ .ev9 ∧ firstLabel i ≠ .db ∧ firstLabel i ≠ .ds1 := by
  cases i <;> simp [firstLabel]

/-- An idle FG accepts a command whose word it decodes, when the lifecycle allows it, or refuses it (R86, R180). -/
theorem Inv.accept {s : State} {i : Instr} (h : Inv s) (hp : s.fg.pc = .idle)
    (hd : decodeCommand (commandWord i) = .ok i) : Inv (s.accept i (firstLabel i)) := by
  have hruns := runsAt_firstLabel (isCommand_of_decodeCommand hd)
  have hfree := h.not_inflight hp (by decide)
  obtain ⟨hev8, hev9, hdb, hds1⟩ := firstLabel_ne i
  obtain ⟨hallows, he⟩ | ⟨-, he⟩ := accept_cases s i (firstLabel i) <;> rw [he]
  · refine ⟨h.cfg, h.regs, ?_⟩
    exact
      { raining := fun hr => by simp [Foreground.raining, hev8, hev9] at hr
        busyInited := fun _ => by
          rw [lifecycleAllows_iff.mp hallows, decide_eq_true_eq, ne_eq, ne_eq, runsAt_in1_iff hruns]
        inflight := fun hfl => absurd hfl (Bool.eq_false_iff.mp hfree)
        coherent := fun _ => (Foreground.coherent_iff _).mpr ⟨i, hd, hruns⟩
        bankIndex := fun hpc => absurd hpc hdb
        bearing := fun hpc => (hpc.elim hdb hds1).elim
        tableBearing := fun hpc => absurd hpc.2 nofun }
  · exact h.answer hp _ _

/-! ### The invariants under a micro-step -/

/-- Every bearing of the table is below 360, and so is what an index outside it reads as (R12, R61). -/
theorem tableBearing_lt {s : State} (hc : s.cfg.Valid) : s.tableBearing.toNat < 360 := by
  have hrom : romRead s.cfg.dirTable s.regs.peakDirectionIndex.toNat < 360 := by
    rw [romRead, List.getD_eq_getElem?_getD]
    cases hget : s.cfg.dirTable[s.regs.peakDirectionIndex.toNat]? with
    | none => decide
    | some d => exact hc.dirTable d (List.mem_of_getElem? hget)
  exact (Nat.mod_le _ _).trans_lt hrom

/-- A turn of DB that is not the last counts to a bank that there is (R115). -/
theorem succ_bankIndex_lt {i : BitVec 4} (hi : i.toNat < 8) (hlast : i + 1 ≠ 8) : (i + 1).toNat < 8 := by
  bv_omega

/-- Each micro-step writes as R229 allows, and then moves FG by one of the rules above. -/
theorem Inv.microAt_next {s t : State} (hinv : Inv s) (h : microAt s = .next t) : Inv t := by
  unfold microAt at h
  cases hl : s.fg.pc with rw [hl] at h
  | idle =>
    cases h
    exact hinv
  | ev1 =>
    simp only [microEV1] at h
    split at h <;> cases h
    · exact hinv.goto_plain hl .ev2
    · exact hinv.respond hl .ok
  | ev2 =>
    have hev3 := hinv.goto_plain hl .ev3
    simp only [microEV2] at h
    split at h <;> rename_i hpending <;> cases h
    · exact ⟨hinv.cfg, hinv.regs.acceptEdge hinv.cfg hpending, hev3.fg.of_regs rfl hev3.fg.inflight fun hr =>
        absurd (Foreground.rainy_of_raining hr) (nofun : ¬ Label.ev3.rainy = true)⟩
    · exact hev3
  | ev3 =>
    simp only [microEV3] at h
    split at h <;> cases h
    · exact (hinv.write hinv.regs.rearm).goto_plain hl .ev4
    · exact hinv.goto_plain hl .ev4
  | ev4 =>
    simp only [microEV4] at h
    split at h <;> cases h
    · exact (hinv.write hinv.regs.rampStep).goto_plain hl .ev5
    · exact hinv.respond hl .ok
  | ev5 =>
    cases h
    exact hinv.call hl .sp1 _ nofun nofun
  | ev6 =>
    cases h
    exact hinv.call hl .dr0 _ nofun fun _ => tableBearing_lt hinv.cfg
  | ev7 =>
    simp only [microEV7] at h
    split at h <;> rename_i hdue <;> cases h
    · exact hinv.goto hl .ev8 (.inr (.inr (hinv.not_inflight hl (by decide))))
        (fun _ _ => ((rainDue_iff _ _).mp hdue).2) nofun
    · exact hinv.respond hl .ok
  | ev8 =>
    cases h
    exact hinv.call hl .rn1 1 (fun _ => hinv.fg.raining (by simp [Foreground.raining, hl])) nofun
  | ev9 =>
    cases h
    have hlt := hinv.fg.raining (by simp [Foreground.raining, hl])
    exact .of_idle hinv.cfg (hinv.regs.countMillimetre hlt) rfl (hinv.not_inflight hl (by decide))
  | sp1 =>
    simp only [microSP1] at h
    split at h <;> cases h
    · exact (hinv.request _).returnTo hl .ev6 _
    · exact ((hinv.request _).write (hinv.regs.speedShadow _ _)).returnTo hl .ev6 .ok
  | dr0 =>
    simp only [microDR0] at h
    split at h <;> rename_i hrange
    · cases h
      exact hinv.returnTo hl .ev7 _
    · have hfree := hinv.not_inflight hl (by decide)
      have hdeg : s.fg.arg.toNat < 360 := Nat.not_le.mp fun hge => hrange (decide_eq_true hge)
      have hzero : (0 : BitVec 4).toNat < 8 := by decide
      split at h <;> cases h
      · exact (hinv.setIndex 0 fun _ => hzero).goto hl .db (.inr (.inr hfree)) nofun
          fun _ => ⟨hdeg, fun _ => hzero⟩
      · exact hinv.goto hl .ds1 (.inr (.inr hfree)) nofun fun _ => ⟨hdeg, nofun⟩
  | db =>
    have hreq := hinv.request s.bankRequest
    simp only [microDB] at h
    split at h
    · cases h
      exact hreq.returnTo hl .ev7 _
    · have hbank := hreq.write
        (hreq.regs.bankOutput (setBit s.regs.outBankSel s.fg.i.toNat (bankSelected s.cfg s.fg.i.toNat s.operand)))
      split at h <;> rename_i hlast <;> cases h
      · exact hbank.returnTo_index hl (s.fg.i + 1) .ev7 .ok
      · have hnext := succ_bankIndex_lt (hinv.fg.bankIndex hl) hlast
        exact (hbank.setIndex (s.fg.i + 1) fun _ => hnext).goto hl .db (.inr (.inr (hinv.not_inflight hl (by decide))))
          nofun fun _ => ⟨hinv.fg.bearing (.inl hl), fun _ => hnext⟩
  | ds1 =>
    simp only [microDS1] at h
    split at h <;> cases h
    · exact (hinv.request _).returnTo hl .ev7 _
    · exact ((hinv.request _).write (hinv.regs.directionOutput _ _ _)).returnTo hl .ev7 .ok
  | rn1 =>
    simp only [microRN1] at h
    split at h <;> cases h
    have htarget := hinv.write
      (hinv.regs.rainTarget (BitVec.ofNat 32 (s.regs.rainTargetUm.toNat + micrometres s.operand)))
    exact htarget.goto_rain hl .rn2 (.inr (.inr (hinv.not_inflight hl (by decide))))
  | rn2 =>
    simp only [microRN2] at h
    split at h <;> cases h
    · exact hinv.goto_rain hl .rn3 (.inr (.inr (hinv.not_inflight hl (by decide))))
    · exact hinv.returnTo hl .ev9 .ok
  | rn3 =>
    have hreq := hinv.request (pulseRequest s.cfg)
    simp only [microRN3] at h
    split at h <;> cases h
    · exact hreq.returnTo hl .ev9 _
    · have hrn4 := hreq.goto_rain hl .rn4 (.inl rfl)
      exact ⟨hinv.cfg, { hinv.regs with }, hrn4.fg.of_regs rfl (fun _ => .inl rfl) hrn4.fg.raining⟩
  | rn4 =>
    simp only [microRN4] at h
    split at h <;> rename_i hfit <;> cases h
    have hok := hinv.regs.addPulse (Nat.not_le.mp fun hge => hfit (decide_eq_true hge))
    exact (hinv.write hok).goto_rain hl .rn5 (.inr (.inl rfl))
  | rn5 =>
    simp only [microRN5] at h
    split at h <;> rename_i hfree <;> cases h
    · exact hinv
    · exact hinv.goto_rain hl .rn2 (.inr (.inr (Bool.eq_false_iff.mpr hfree)))
  | rr1 =>
    cases h
    exact (hinv.write hinv.regs.zeroRain).respond hl .ok
  | ak1 =>
    cases h
    exact (hinv.write hinv.regs.acknowledge).respond hl .ok
  | in1 =>
    simp only [microIN1] at h
    split at h <;> cases h
    · exact (hinv.request _).respond hl _
    · exact .of_idle hinv.cfg ((Regs.reset_ok hinv.cfg).enable fun _ => rfl) rfl rfl
  | de1 =>
    have hregs := hinv.regs.enable (syncEn := false) (tickEn := false) (inited := false) nofun
    have hfree := hinv.not_inflight hl (by decide)
    simp only [microDE1] at h
    split at h <;> cases h <;> exact .of_idle hinv.cfg hregs rfl hfree
  | st1 | so1 =>
    have hinited := hinv.inited hl (by decide)
    simp only [microST1, microSO1] at h
    split at h <;> cases h
    · exact (hinv.request _).respond hl _
    · exact ((hinv.request _).write (hinv.regs.enable fun _ => hinited)).goto_plain hl _
  | st2 | so2 =>
    have hinited := hinv.inited hl (by decide)
    simp only [microST2, microSO2] at h
    split at h <;> cases h
    · exact (hinv.request _).respond hl _
    · exact ((hinv.request _).write (hinv.regs.enable fun _ => hinited)).respond hl .ok

/-! ### The invariants under every step -/

theorem Inv.exec_command {i : Instr} {s t : State} (hinv : Inv s) (hd : decodeCommand (commandWord i) = .ok i)
    (h : exec i s = .next t) : Inv t := by
  obtain ⟨hp, rfl⟩ | ⟨-, rfl⟩ | ⟨-, -, hm⟩ := exec_command_cases (isCommand_of_decodeCommand hd) h
  · exact hinv.accept hp hd
  · exact hinv
  · exact hinv.microAt_next hm

/-- Settles O47: an event writes registers, a command is accepted or takes a micro-step, and the other kinds of step
write neither registers nor FG, but for an answer to an idle FG and a reset. -/
theorem invariantIsKeptByEveryStep : Obligations.InvariantIsKeptByEveryStep := by
  intro s t hinv h
  cases step_kind h with
  | event i agenda hi hx =>
    have hevent : i.isCommand = false := by obtain rfl | rfl | rfl := hi <;> rfl
    obtain ⟨hfit, rfl⟩ := (exec_event_next_iff hevent).mp hx
    exact (hinv.of_agenda agenda).event hfit
  | running i agenda _ hd hx | offered i w agenda _ hd hx =>
    exact (hinv.of_agenda agenda).exec_command (eq_commandWord_of_decodeCommand hd ▸ hd) hx
  | nothing agenda ht | read addr agenda ht =>
    subst ht
    exact hinv.of_same rfl rfl rfl
  | illegal w agenda hp _ ht =>
    subst ht
    exact (hinv.of_agenda agenda).answer hp w .errIllegal
  | cycle p agenda ht =>
    subst ht
    exact (hinv.of_agenda agenda).clockCycle p

end Sys2Proof.Machine
end
